-- ==== Sys2Proof/Word.lean ====
section
/-! DEFINITION. The word types of the station: bytes, 32-bit words, addresses and sets of addresses. -/

namespace Sys2Proof

/-- One byte of a port transaction or of a response (R178). -/
abbrev Byte := BitVec 8

/-- A 32-bit word: a detail word, a settle number, a reference. -/
abbrev Word := BitVec 32

/-- A station address, 0 to 15 (Table 10-1). -/
abbrev Addr := BitVec 4

/-- A set of stations: bit n is 1 when address n is in the set (chapter 11, section 11.1). -/
abbrev StationSet := BitVec 16

/-- The bits a frame's body occupies, positions 2 to 123 (Table 11-2): urgency, sender, kind, payload and
frame check, the first bit sent being the most significant. -/
abbrev BodyBits := BitVec 122

/-- The 96 payload bits of a frame, numbered 95 down to 0 as Table 11-3 numbers them. -/
abbrev PayloadBits := BitVec 96

end Sys2Proof
end

