-- ==== Sys2Proof/Syntax.lean ====
section
/-! DEFINITION. The commands of the station: one constructor per row of spec/opcode_table.json. The table
gives the rows no operands; the operands here are the model's (DESIGN CHOICE, log 3): what the step needs from
outside the station. -/

namespace Sys2Proof

/-- What the station reads from the ack window to the end mark (positions 124 to 164, Table 11-2). -/
structure Tail where
  /-- The ack map read: bit n is 1 when slot n read dominant (acknowledged). -/
  ack : StationSet
  /-- The echo read: bit n is 1 when the echo bit of slot n read dominant. -/
  echo : StationSet
  /-- The eight echo check bits read, as logical values. -/
  check : Byte
  /-- The end mark read dominant. -/
  endDominant : Bool
  deriving DecidableEq, Repr

/-- The pins, but for the straps, as a reset ends. -/
structure Pins where
  /-- The levels of FIN0 to FIN23, bit n high for FINn (R124). -/
  fin : BitVec 24
  /-- Chip select: none when it is high, else the number of bits clocked since its fall (R150). -/
  clocked : Option Nat
  deriving DecidableEq, Repr

/-- Where the bus and the port stand when RESET is taken. -/
structure Moment where
  /-- The position of the frame on the bus (R59, R176). -/
  position : Nat
  /-- Chip select: none when it is high, else the number of bits clocked since its fall (R150). -/
  clocked : Option Nat
  deriving DecidableEq, Repr

/-- The commands and events of opcode_table.json. In every port row the list of bytes is what the controller
shifts in after the bytes the row itself fixes (command code; for SET STATION the item; for SET SOURCE the
item, which stands between the source and the value). -/
inductive Instr where
  /-- POWER_ON. -/
  | powerOn
  /-- END_OF_POWER_ON, with the strap levels and the other pins at that moment. -/
  | endOfPowerOn (addr : Addr) (rate : BitVec 2) (autojoin : Bool) (pins : Pins)
  /-- RESET_ASSERTED, with where the bus and the port stand at that bit time. -/
  | resetAsserted (moment : Moment)
  /-- RESET_RELEASED, with the strap levels and the other pins at that moment. -/
  | resetReleased (rate : BitVec 2) (autojoin : Bool) (pins : Pins)
  /-- BUS_IDLE. -/
  | busIdle
  /-- FRAME_START: `byOther` when the start bit was read before this station had driven its own. -/
  | frameStart (byOther : Bool)
  /-- ARBITRATION_LOSS: `atUrgency` when the losing bit is in the urgency field, else in the sender field. -/
  | arbitrationLoss (atUrgency : Bool)
  /-- HEAD_AGING. -/
  | headAging
  /-- TRANSMISSION_FAULT. -/
  | transmissionFault
  /-- BODY_RECEIVED, with the 122 bits read from urgency to frame check. -/
  | bodyReceived (bits : BodyBits)
  /-- FRAME_END, with what was read from the ack window to the end mark. -/
  | frameEnd (tail : Tail)
  /-- REPEATED_BREAKS. -/
  | repeatedBreaks
  /-- STUCK_LINE. -/
  | stuckLine
  /-- RETRY_EXHAUSTION. -/
  | retryExhaustion
  /-- ROSTER_RETRY_EXHAUSTION. -/
  | rosterRetryExhaustion
  /-- ADRIFT_FRAME_COUNT_EXPIRY. -/
  | adriftFrameCountExpiry
  /-- AUTOMATIC_JOIN. -/
  | automaticJoin
  /-- JOIN_WAIT_EXPIRY. -/
  | joinWaitExpiry
  /-- TRANSFER_TIMER_EXPIRY. -/
  | transferTimerExpiry
  /-- ADRIFT_WAIT_EXPIRY. -/
  | adriftWaitExpiry
  /-- LINE_ACTIVE. -/
  | lineActive (line : Fin 24)
  /-- LINE_INACTIVE. -/
  | lineInactive (line : Fin 24)
  /-- QUALIFICATION_EXPIRY. -/
  | qualificationExpiry (line : Fin 24)
  /-- STATUS: bytes after the command code (ignored). -/
  | status (rest : List Byte)
  /-- READ_ALERTS: bytes after the command code (ignored). -/
  | readAlerts (rest : List Byte)
  /-- SET_STATION_QUALIFY_TIME: bytes after the item: the value. -/
  | setStationQualifyTime (rest : List Byte)
  /-- SET_STATION_JOIN_WAIT. -/
  | setStationJoinWait (rest : List Byte)
  /-- SET_STATION_AUTO_REJOIN. -/
  | setStationAutoRejoin (rest : List Byte)
  /-- SET_STATION_DETACHED_LEVEL. -/
  | setStationDetachedLevel (rest : List Byte)
  /-- SET_STATION_ALERT_MASK. -/
  | setStationAlertMask (rest : List Byte)
  /-- SET_STATION_FOUNDING_DROP_LIMIT. -/
  | setStationFoundingDropLimit (rest : List Byte)
  /-- SET_STATION_FOUNDING_LOSS_SEVERITY. -/
  | setStationFoundingLossSeverity (rest : List Byte)
  /-- SET_SOURCE_CLASS: the source byte, and the bytes after the item: the value. -/
  | setSourceClass (source : Byte) (rest : List Byte)
  /-- SET_SOURCE_MODE. -/
  | setSourceMode (source : Byte) (rest : List Byte)
  /-- SET_SOURCE_POLARITY. -/
  | setSourcePolarity (source : Byte) (rest : List Byte)
  /-- SET_SOURCE_THRESHOLD. -/
  | setSourceThreshold (source : Byte) (rest : List Byte)
  /-- JOIN: bytes after the command code (ignored). -/
  | join (rest : List Byte)
  /-- LEAVE: bytes after the command code (ignored). -/
  | leave (rest : List Byte)
  /-- RAISE: source, then detail in four bytes. -/
  | raise (rest : List Byte)
  /-- RELEASE_SOURCE: source. -/
  | releaseSource (rest : List Byte)
  /-- RESOLVE: source. -/
  | resolve (rest : List Byte)
  /-- REQUEST_CLEAR: scope, origin station, reference in four bytes. -/
  | requestClear (rest : List Byte)
  /-- READ_LOCAL: selector. -/
  | readLocal (rest : List Byte)
  /-- CLEAR_LOCAL_FIRST: bytes after the command code (ignored). -/
  | clearLocalFirst (rest : List Byte)
  /-- READ_COUNTER: source. -/
  | readCounter (rest : List Byte)
  /-- CLEAR_COUNTER: source. -/
  | clearCounter (rest : List Byte)
  /-- READ_ENTRY: position. -/
  | readEntry (rest : List Byte)
  /-- READ_CHASSIS_FIRST: bytes after the command code (ignored). -/
  | readChassisFirst (rest : List Byte)
  /-- READ_ROSTER: bytes after the command code (ignored). -/
  | readRoster (rest : List Byte)
  /-- COMMAND_CODE_NAMES_NO_COMMAND: all the bytes of a transaction that spells none of the other port rows; with no
  byte, or with the idle byte FFh first, it is a transaction that only shifts the response out (log 23). -/
  | commandCodeNamesNoCommand (bytes : List Byte)
  deriving DecidableEq, Repr

end Sys2Proof
end

