-- ==== Sys2Proof/WellFormed.lean ====
section
/-! DEFINITION. When a command is well formed: its operands are ones the row can have. The meanings are total
and do not assume it. -/

namespace Sys2Proof

/-- The transaction spells no other row of the table (R150, R178): it has no whole byte; its first byte is the idle
byte FFh; its code names no command (Table 11-5); or it is a SET STATION or SET SOURCE that ends before its item or names
no item (Table 11-6). -/
def spellsNoRow : List Byte → Bool
  | [] => true
  | code :: rest =>
    if code = 0x03#8 then
      match rest with
      | [] => true
      | item :: _ => decide (0x06#8 < item)
    else if code = 0x04#8 then
      match rest with
      | _ :: item :: _ => decide (0x03#8 < item)
      | _ => true
    else decide (code = 0x00#8) || decide (0x11#8 < code)

/-- A frame with its gap has positions 1 to 174 (R176); 0 stands for a bit time outside a frame. -/
def positionOk (position : Nat) : Bool := decide (position ≤ 174)

/-- The operands are ones the row can have. -/
def Instr.wf : Instr → Bool
  | .resetAsserted moment => positionOk moment.position
  | .commandCodeNamesNoCommand bytes => spellsNoRow bytes
  | .powerOn => true
  | .endOfPowerOn _ _ _ _ => true
  | .resetReleased _ _ _ => true
  | .busIdle => true
  | .frameStart _ => true
  | .arbitrationLoss _ => true
  | .headAging => true
  | .transmissionFault => true
  | .bodyReceived _ => true
  | .frameEnd _ => true
  | .repeatedBreaks => true
  | .stuckLine => true
  | .retryExhaustion => true
  | .rosterRetryExhaustion => true
  | .adriftFrameCountExpiry => true
  | .automaticJoin => true
  | .joinWaitExpiry => true
  | .transferTimerExpiry => true
  | .adriftWaitExpiry => true
  | .lineActive _ => true
  | .lineInactive _ => true
  | .qualificationExpiry _ => true
  | .status _ => true
  | .readAlerts _ => true
  | .setStationQualifyTime _ => true
  | .setStationJoinWait _ => true
  | .setStationAutoRejoin _ => true
  | .setStationDetachedLevel _ => true
  | .setStationAlertMask _ => true
  | .setStationFoundingDropLimit _ => true
  | .setStationFoundingLossSeverity _ => true
  | .setSourceClass _ _ => true
  | .setSourceMode _ _ => true
  | .setSourcePolarity _ _ => true
  | .setSourceThreshold _ _ => true
  | .join _ => true
  | .leave _ => true
  | .raise _ => true
  | .releaseSource _ => true
  | .resolve _ => true
  | .requestClear _ => true
  | .readLocal _ => true
  | .clearLocalFirst _ => true
  | .readCounter _ => true
  | .clearCounter _ => true
  | .readEntry _ => true
  | .readChassisFirst _ => true
  | .readRoster _ => true

end Sys2Proof
end

