-- ==== Sys2Proof/Decode.lean ====
section
/-! DEFINITION. The decoders. No row of opcode_table.json gives bits, so `decodeTableWord` spells nothing; the
port rows have bytes (Table 11-5, Table 11-6), which `decodeTransaction` reads and `encodeTransaction` writes. -/

namespace Sys2Proof

/-- The command a word of the table's bits spells: no row gives bits, so none (log 7). -/
def decodeTableWord (_nbits _w : Nat) : Option Instr := none

/-- SET STATION's rows by item code (Table 11-6). -/
def decodeStationItem (item : Byte) (rest : List Byte) : Option Instr :=
  if item = 0x00#8 then some (.setStationQualifyTime rest)
  else if item = 0x01#8 then some (.setStationJoinWait rest)
  else if item = 0x02#8 then some (.setStationAutoRejoin rest)
  else if item = 0x03#8 then some (.setStationDetachedLevel rest)
  else if item = 0x04#8 then some (.setStationAlertMask rest)
  else if item = 0x05#8 then some (.setStationFoundingDropLimit rest)
  else if item = 0x06#8 then some (.setStationFoundingLossSeverity rest)
  else none

/-- SET SOURCE's rows by item code (Table 11-6). -/
def decodeSourceItem (source item : Byte) (rest : List Byte) : Option Instr :=
  if item = 0x00#8 then some (.setSourceClass source rest)
  else if item = 0x01#8 then some (.setSourceMode source rest)
  else if item = 0x02#8 then some (.setSourcePolarity source rest)
  else if item = 0x03#8 then some (.setSourceThreshold source rest)
  else none

/-- The rows other than COMMAND_CODE_NAMES_NO_COMMAND by command code (Table 11-5). -/
def decodeCode (code : Byte) (rest : List Byte) : Option Instr :=
  if code = 0x01#8 then some (.status rest)
  else if code = 0x02#8 then some (.readAlerts rest)
  else if code = 0x03#8 then
    match rest with
    | item :: more => decodeStationItem item more
    | [] => none
  else if code = 0x04#8 then
    match rest with
    | source :: item :: more => decodeSourceItem source item more
    | _ => none
  else if code = 0x05#8 then some (.join rest)
  else if code = 0x06#8 then some (.leave rest)
  else if code = 0x07#8 then some (.raise rest)
  else if code = 0x08#8 then some (.releaseSource rest)
  else if code = 0x09#8 then some (.resolve rest)
  else if code = 0x0A#8 then some (.requestClear rest)
  else if code = 0x0B#8 then some (.readLocal rest)
  else if code = 0x0C#8 then some (.clearLocalFirst rest)
  else if code = 0x0D#8 then some (.readCounter rest)
  else if code = 0x0E#8 then some (.clearCounter rest)
  else if code = 0x0F#8 then some (.readEntry rest)
  else if code = 0x10#8 then some (.readChassisFirst rest)
  else if code = 0x11#8 then some (.readRoster rest)
  else none

/-- The port row a whole transaction is, from the bytes shifted in (R150, R178). A transaction that spells no other row
is of the last row, the idle byte and a transaction of no whole byte among them (log 23). -/
def decodeTransaction (bytes : List Byte) : Instr :=
  match bytes with
  | [] => .commandCodeNamesNoCommand []
  | code :: rest => (decodeCode code rest).getD (.commandCodeNamesNoCommand bytes)

/-- The bytes of a port row's transaction, in the order of Table 11-5 (R178); none for the other rows. -/
def encodeTransaction : Instr → Option (List Byte)
  | .status rest => some (0x01#8 :: rest)
  | .readAlerts rest => some (0x02#8 :: rest)
  | .setStationQualifyTime rest => some (0x03#8 :: 0x00#8 :: rest)
  | .setStationJoinWait rest => some (0x03#8 :: 0x01#8 :: rest)
  | .setStationAutoRejoin rest => some (0x03#8 :: 0x02#8 :: rest)
  | .setStationDetachedLevel rest => some (0x03#8 :: 0x03#8 :: rest)
  | .setStationAlertMask rest => some (0x03#8 :: 0x04#8 :: rest)
  | .setStationFoundingDropLimit rest => some (0x03#8 :: 0x05#8 :: rest)
  | .setStationFoundingLossSeverity rest => some (0x03#8 :: 0x06#8 :: rest)
  | .setSourceClass source rest => some (0x04#8 :: source :: 0x00#8 :: rest)
  | .setSourceMode source rest => some (0x04#8 :: source :: 0x01#8 :: rest)
  | .setSourcePolarity source rest => some (0x04#8 :: source :: 0x02#8 :: rest)
  | .setSourceThreshold source rest => some (0x04#8 :: source :: 0x03#8 :: rest)
  | .join rest => some (0x05#8 :: rest)
  | .leave rest => some (0x06#8 :: rest)
  | .raise rest => some (0x07#8 :: rest)
  | .releaseSource rest => some (0x08#8 :: rest)
  | .resolve rest => some (0x09#8 :: rest)
  | .requestClear rest => some (0x0A#8 :: rest)
  | .readLocal rest => some (0x0B#8 :: rest)
  | .clearLocalFirst rest => some (0x0C#8 :: rest)
  | .readCounter rest => some (0x0D#8 :: rest)
  | .clearCounter rest => some (0x0E#8 :: rest)
  | .readEntry rest => some (0x0F#8 :: rest)
  | .readChassisFirst rest => some (0x10#8 :: rest)
  | .readRoster rest => some (0x11#8 :: rest)
  | .commandCodeNamesNoCommand bytes => some bytes
  | .powerOn => none
  | .endOfPowerOn _ _ _ _ => none
  | .resetAsserted _ => none
  | .resetReleased _ _ _ => none
  | .busIdle => none
  | .frameStart _ => none
  | .arbitrationLoss _ => none
  | .headAging => none
  | .transmissionFault => none
  | .bodyReceived _ => none
  | .frameEnd _ => none
  | .repeatedBreaks => none
  | .stuckLine => none
  | .retryExhaustion => none
  | .rosterRetryExhaustion => none
  | .adriftFrameCountExpiry => none
  | .automaticJoin => none
  | .joinWaitExpiry => none
  | .transferTimerExpiry => none
  | .adriftWaitExpiry => none
  | .lineActive _ => none
  | .lineInactive _ => none
  | .qualificationExpiry _ => none

end Sys2Proof
end

