-- ==== Sys2Proof/Config.lean ====
section
/-! DEFINITION. What the spec leaves without a value. -/

namespace Sys2Proof

/-- The n-th byte clocked out of SDO to which the spec gives no one value: before the end of power-on "SDO is undriven, and
the bytes clocked out have no defined value" (R178; log 8, log 38), and in a transaction that straddles a reset (log 34). A
free value: nothing constrains it. -/
opaque Config.freeByte : Nat → Byte

end Sys2Proof
end

