-- ==== Sys2Proof/Machine/State.lean ====
section
/-! DEFINITION. The state of the station, block by block (00_scope.md, Table 0-1), and its value at reset. -/

namespace Sys2Proof.Machine

/-- Why the station stops: never. The spec names no condition on which the station stops, so no command raises
a fault and this type has no constructor. An absence that is safe: no claim can rest on a fault. -/
inductive Fault where
  deriving DecidableEq, Repr

/-- Why a command has no meaning in the model. -/
inductive Refusal where
  /-- Raised by an arm of `exec` whose row has no meaning yet. Safe: the model stops where the station goes on. -/
  | notModelled (mnemonic : String)
  deriving DecidableEq, Repr

/-! ### Names (Table 11-1) -/

/-- The weight of a fault, from least to most (Table 0-3). -/
inductive Severity where
  | minor | major | critical
  deriving DecidableEq, Repr

/-- The chassis level and the driven level (R26, R34). -/
inductive Level where
  | quiet | watch | contain | halt
  deriving DecidableEq, Repr

/-- The states of a station (R100). -/
inductive Station where
  | detached | joining | transfer | member | leaving | adrift
  deriving DecidableEq, Repr

/-- The record state of a member (Table 5-2). -/
inductive MemberState where
  | new | full | departing
  deriving DecidableEq, Repr

/-- The state of a local record; REPORTED alone carries a settle number (R143). -/
inductive LocalState where
  | queued | inFlight | reported (settle : Word) | unsent
  deriving DecidableEq, Repr

/-- The class of a source (R121). -/
inductive SourceClass where
  | off | count | minor | major | critical
  deriving DecidableEq, Repr

/-- The mode of a line source (R124). -/
inductive Mode where
  | edge | level
  deriving DecidableEq, Repr

/-- The polarity of a line source (R122). -/
inductive Polarity where
  | activeLow | activeHigh
  deriving DecidableEq, Repr

/-- The line tracker (Table 7-3). -/
inductive Tracker where
  | inactive | qualifying | held
  deriving DecidableEq, Repr

/-- The detached-level policy (R36). -/
inductive Policy where
  | hold | contain | halt
  deriving DecidableEq, Repr

/-- The scope of a CLEAR (Table 2-3). -/
inductive Scope where
  | first | halt | origin
  deriving DecidableEq, Repr

/-- The outcome of a settled CLEAR (R29 to R31). -/
inductive ClearOutcome where
  | done | stale | refused
  deriving DecidableEq, Repr

/-- The cause of the last removal (R96). -/
inductive Removal where
  | none | departed | dropped
  deriving DecidableEq, Repr

/-- The status of a response (Table 9-1). -/
inductive Status where
  | done | busy | wrongState | badArg | locked | active | invalid
  deriving DecidableEq, Repr

/-- The Frame Engine's bus states (Table 3-1). -/
inductive Bus where
  | brokenWait | idle | arbitrating | transmitting | receiving
  deriving DecidableEq, Repr

/-- Where the bus stands in a frame (Table 11-2): outside any frame; from the start bit to the frame check;
from the ack window to the end mark; in the rest of the interframe gap of a complete frame. -/
inductive Phase where
  | none | body | tail | gap
  deriving DecidableEq, Repr

/-- Which block offered the frame this station has on the bus (R42). -/
inductive Path where
  | roster | queue | join
  deriving DecidableEq, Repr

/-! ### Power, straps, configuration -/

/-- Supply and RESET. -/
structure Power where
  /-- The end of power-on has come. -/
  ended : Bool
  /-- RESET is asserted (low). -/
  resetLow : Bool
  deriving DecidableEq, Repr

/-- The sampled strap values (R168). -/
structure Straps where
  addr : Addr
  rate : BitVec 2
  autojoin : Bool
  deriving DecidableEq, Repr

/-- The seven station items (R169, Table 10-2). -/
structure Items where
  qualifyTime : Byte
  joinWait : Byte
  autoRejoin : Bool
  detachedLevel : Policy
  alertMask : Byte
  foundingDropLimit : BitVec 4
  /-- none is the value NONE. -/
  foundingLoss : Option Severity
  deriving DecidableEq, Repr

/-! ### Source Monitor -/

/-- One source: its class and threshold (Table 10-3) and the state of Table 7-1. -/
structure Source where
  cls : SourceClass
  threshold : Byte
  latched : Bool
  counter : Byte
  flag : Bool
  deriving DecidableEq, Repr

/-- One fault input line: its mode and polarity (Table 10-3), tracker and qualification timer (Table 7-1).
The timer is stopped (none) or running with the qualify time it started with. -/
structure Line where
  mode : Mode
  polarity : Polarity
  tracker : Tracker
  timer : Option Byte
  deriving DecidableEq, Repr

/-- The Source Monitor with the source table it reads. -/
structure Monitor where
  sources : Vector Source 32
  lines : Vector Line 24
  /-- The present level of FIN0 to FIN23, bit n high for FINn (R122). -/
  fin : BitVec 24
  deriving DecidableEq, Repr

/-! ### Local Fault Log -/

/-- A local record (Table 8-1). -/
structure Record where
  number : BitVec 16
  source : BitVec 5
  severity : Severity
  occurrences : Byte
  detail : Word
  state : LocalState
  deriving DecidableEq, Repr

/-- The Local Fault Log (R137 to R141). -/
structure Log where
  first : Option Record
  next : List Record
  overflow : Byte
  counter : BitVec 16
  deriving DecidableEq, Repr

/-! ### Notice Queue -/

/-- The content of a FAULT notice (Table 4-2). -/
structure Report where
  source : BitVec 6
  severity : Severity
  occurrences : Byte
  detail : Word
  number : BitVec 16
  deriving DecidableEq, Repr

/-- A notice: the kinds that pass through the queue, with their content (Table 4-2). -/
inductive Notice where
  | fault (report : Report)
  | resolve (source : BitVec 6)
  | clear (scope : Scope) (origin : Addr) (reference : Word)
  | leave
  deriving DecidableEq, Repr

/-- A queue item. `linked`: it is linked to the one local record of its source (R64, R138; log 27). `age` is its
place in the order of insertion. -/
structure Item where
  notice : Notice
  linked : Bool
  age : Nat
  deriving DecidableEq, Repr

/-- The head in flight, with the counts of Table 4-2 that only a head in flight has moved. -/
structure Head where
  item : Item
  transmissions : Nat
  losses : Nat
  urgency : Nat
  /-- The model's own: the loss that would bring the count to 8 has come, and HEAD_AGING is due (log 5). -/
  agingDue : Bool
  deriving DecidableEq, Repr

/-- The outbound notice queue (R61): the item in flight, and the waiting items in queue order. -/
structure Queue where
  inFlight : Option Head
  waiting : List Item
  loss : Byte
  nextAge : Nat
  deriving DecidableEq, Repr

/-! ### Frame Engine -/

/-- The frame this station has on the bus: who offered it and its bits, taken at the start bit (R42). -/
structure Sent where
  path : Path
  bits : BodyBits
  deriving DecidableEq, Repr

/-- The Frame Engine (Table 3-8), and where it stands in the frame on the bus. -/
structure Engine where
  bus : Bus
  recessive : Nat
  stuckRun : Nat
  phase : Phase
  sent : Option Sent
  lostAtSender : Bool
  breaking : Bool
  rx : Option BodyBits
  broken : Nat
  foreign : StationSet
  deriving DecidableEq, Repr

/-! ### Chassis Record -/

/-- A chassis fault table entry (Table 1-1). -/
structure Entry where
  origin : Addr
  source : BitVec 6
  severity : Severity
  firstSettle : Word
  occurrences : Byte
  detail : Word
  absent : Bool
  deriving DecidableEq, Repr

/-- A present chassis first record (Table 2-1). -/
structure First where
  origin : Addr
  source : BitVec 6
  severity : Severity
  settle : Word
  detail : Word
  deriving DecidableEq, Repr

/-- A member record (Table 5-2). -/
structure Member where
  state : MemberState
  miss : BitVec 4
  deriving DecidableEq, Repr

/-- This station's copy of the chassis record. The member map is the set of addresses that have a record. -/
structure Chassis where
  generation : BitVec 16
  records : Vector (Option Member) 16
  dropLimit : BitVec 4
  /-- none is the value NONE. -/
  loss : Option Severity
  table : List Entry
  first : Option First
  sinceFirst : BitVec 16
  halt : Bool
  level : Level
  dropped : BitVec 16
  settle : Word
  deriving DecidableEq, Repr

/-! ### Roster Controller -/

/-- A busy transfer sequencer (R91). -/
structure Sequencer where
  addr : Addr
  next : BitVec 6
  total : BitVec 6
  deriving DecidableEq, Repr

/-- What a roster station holds beside its copy (R85 to R92). -/
structure Duties where
  list : List Addr
  sequencer : Option Sequencer
  retries : Nat
  deriving DecidableEq, Repr

/-- An admission in progress (R114). -/
structure Admission where
  addr : Addr
  total : BitVec 6
  deriving DecidableEq, Repr

/-- What a joiner in TRANSFER expects (R111): expected index, expected total, and whether the admitting ROSTER
carried first-record present. -/
structure Transfer where
  next : BitVec 6
  total : BitVec 6
  withFirst : Bool
  deriving DecidableEq, Repr

/-- The Roster Controller. `duties` is none when the station is not roster station. -/
structure Ctl where
  station : Station
  duties : Option Duties
  admission : Option Admission
  /-- Stopped (none) or running with the join wait it started with (R101). -/
  joinTimer : Option Byte
  joinPending : Bool
  joinOwed : Bool
  attempts : Byte
  heardTraffic : Bool
  heardList : List Addr
  transfer : Option Transfer
  adriftFrames : Nat
  adriftLeaving : Bool
  cause : Removal
  deriving DecidableEq, Repr

/-! ### Containment Outputs and Management Port -/

/-- The Containment Outputs, with their three pins (true is asserted, which drives the pin high, R179). -/
structure Outputs where
  lastKnown : Level
  policy : Policy
  driven : Level
  watch : Bool
  contain : Bool
  haltLine : Bool
  deriving DecidableEq, Repr

/-- The alert causes, the mask in use and the ALERT pin (true is asserted, which pulls the pin low, R179). -/
structure Alerts where
  pending : Byte
  mask : Byte
  line : Bool
  deriving DecidableEq, Repr

/-- The clear outcome record when it is not none (R32). -/
structure ClearRecord where
  scope : Scope
  origin : Addr
  reference : Word
  outcome : ClearOutcome
  settle : Word
  deriving DecidableEq, Repr

/-- A stored response (R151). -/
structure Response where
  code : Byte
  count : Byte
  status : Status
  data : List Byte
  deriving DecidableEq, Repr

/-- The rest of the Management Port. `sdo`: the bytes the last transaction shifted out. `straddle`: chip select has been low
since before the last reset ended, so that the transaction in progress takes no command (R150), with the bytes it had
shifted out by then. -/
structure Port where
  response : Option Response
  count : Byte
  clear : Option ClearRecord
  sdo : List Byte
  straddle : Option (List Byte)
  deriving DecidableEq, Repr

/-! ### The state -/

/-- The state of one station, and the commands that wait. -/
structure State where
  power : Power
  straps : Straps
  items : Items
  monitor : Monitor
  log : Log
  queue : Queue
  engine : Engine
  chassis : Chassis
  ctl : Ctl
  outputs : Outputs
  alerts : Alerts
  port : Port
  /-- The model's own: how many free bytes have been used (log 8). -/
  freeCount : Nat
  /-- The commands that wait, first in, first out. -/
  pending : List Instr
  deriving DecidableEq, Repr

/-! ### Updates, one per block -/

/-- Replace the power block. -/
def State.withPower (s : State) (x : Power) : State := { s with power := x }
/-- Replace the sampled straps. -/
def State.withStraps (s : State) (x : Straps) : State := { s with straps := x }
/-- Replace the station items. -/
def State.withItems (s : State) (x : Items) : State := { s with items := x }
/-- Replace the Source Monitor. -/
def State.withMonitor (s : State) (x : Monitor) : State := { s with monitor := x }
/-- Replace the Local Fault Log. -/
def State.withLog (s : State) (x : Log) : State := { s with log := x }
/-- Replace the Notice Queue. -/
def State.withQueue (s : State) (x : Queue) : State := { s with queue := x }
/-- Replace the Frame Engine. -/
def State.withEngine (s : State) (x : Engine) : State := { s with engine := x }
/-- Replace the chassis copy. -/
def State.withChassis (s : State) (x : Chassis) : State := { s with chassis := x }
/-- Replace the Roster Controller. -/
def State.withCtl (s : State) (x : Ctl) : State := { s with ctl := x }
/-- Replace the Containment Outputs. -/
def State.withOutputs (s : State) (x : Outputs) : State := { s with outputs := x }
/-- Replace the alert block. -/
def State.withAlerts (s : State) (x : Alerts) : State := { s with alerts := x }
/-- Replace the port block. -/
def State.withPort (s : State) (x : Port) : State := { s with port := x }
/-- Replace the free value counter. -/
def State.withFree (s : State) (x : Nat) : State := { s with freeCount := x }
/-- Replace the queue of commands. -/
def State.withPending (s : State) (x : List Instr) : State := { s with pending := x }

/-! ### Reset -/

/-- The defaults of Table 10-2. -/
def Items.default : Items :=
  { qualifyTime := 10, joinWait := 20, autoRejoin := true, detachedLevel := .hold, alertMask := 0,
    foundingDropLimit := 3, foundingLoss := some .major }

/-- The default class of a source (Table 10-3). -/
def defaultClass (n : Nat) : SourceClass :=
  if n < 24 then .off else if n < 31 then .major else .minor

/-- A source at power-on (Table 10-3, R136). -/
def Source.powerOn (n : Nat) : Source :=
  { cls := defaultClass n, threshold := 16, latched := false, counter := 0, flag := false }

/-- A line with its default items and its timer stopped (Table 10-3, R136). -/
def Line.default : Line :=
  { mode := .edge, polarity := .activeLow, tracker := .inactive, timer := none }

/-- The Source Monitor at power-on (R136). -/
def Monitor.powerOn : Monitor :=
  { sources := Vector.ofFn (fun i : Fin 32 => Source.powerOn i.val),
    lines := Vector.ofFn (fun _ : Fin 24 => Line.default),
    fin := 0 }

/-- The Local Fault Log at power-on (R149). -/
def Log.powerOn : Log := { first := none, next := [], overflow := 0, counter := 0 }

/-- The Notice Queue at power-on (R79). -/
def Queue.powerOn : Queue := { inFlight := none, waiting := [], loss := 0, nextAge := 0 }

/-- The Frame Engine after either reset (Table 3-8). -/
def Engine.reset : Engine :=
  { bus := .brokenWait, recessive := 0, stuckRun := 0, phase := .none, sent := none, lostAtSender := false,
    breaking := false, rx := none, broken := 0, foreign := 0 }

/-- A discarded chassis copy (R18, R27, R80, R82, R99). -/
def Chassis.empty : Chassis :=
  { generation := 0, records := Vector.replicate 16 none, dropLimit := 0, loss := none, table := [],
    first := none, sinceFirst := 0, halt := false, level := .quiet, dropped := 0, settle := 0 }

/-- The Roster Controller after either reset, before a reset's automatic join (R99, Table 6-6). -/
def Ctl.reset : Ctl :=
  { station := .detached, duties := none, admission := none, joinTimer := none, joinPending := false,
    joinOwed := false, attempts := 0, heardTraffic := false, heardList := [], transfer := none,
    adriftFrames := 0, adriftLeaving := false, cause := .none }

/-- The Containment Outputs at power-on (R38). -/
def Outputs.powerOn : Outputs :=
  { lastKnown := .quiet, policy := .hold, driven := .quiet, watch := false, contain := false,
    haltLine := false }

/-- The alert causes, mask and line after either reset (Table 9-6). -/
def Alerts.reset : Alerts := { pending := 0, mask := 0, line := false }

/-- The rest of the port after either reset (Table 9-6). -/
def Port.reset : Port := { response := none, count := 0, clear := none, sdo := [], straddle := none }

/-- The station right after the supply has risen (POWER_ON): every block at its power-on value, the straps not
sampled yet (log 6), and no command waiting. -/
def State.reset : State :=
  { power := { ended := false, resetLow := false },
    straps := { addr := 0, rate := 0, autojoin := false },
    items := Items.default,
    monitor := Monitor.powerOn,
    log := Log.powerOn,
    queue := Queue.powerOn,
    engine := Engine.reset,
    chassis := Chassis.empty,
    ctl := Ctl.reset,
    outputs := Outputs.powerOn,
    alerts := Alerts.reset,
    port := Port.reset,
    freeCount := 0,
    pending := [] }

end Sys2Proof.Machine
end

