-- ==== Sys2Proof/Machine/Flags.lean ====
section
/-! DEFINITION. Counts that saturate, the alert causes and the ALERT line, the chassis level, the driven level
and the containment lines. -/

namespace Sys2Proof.Machine

/-! ### Saturating counts (0.6 Conventions) -/

/-- The sum, staying at the maximum of the width when it would go above it. -/
def satAdd {w : Nat} (a b : BitVec w) : BitVec w :=
  if 2 ^ w ≤ a.toNat + b.toNat then BitVec.allOnes w else a + b

/-- One more, staying at the maximum of the width. -/
def satInc {w : Nat} (a : BitVec w) : BitVec w := satAdd a 1

/-! ### Sets of stations -/

/-- The addresses 0 to 15 in ascending order. -/
def allAddrs : List Addr := [0, 1, 2, 3, 4, 5, 6, 7, 8, 9, 10, 11, 12, 13, 14, 15]

/-- The address is in the set. -/
def setHas (m : StationSet) (a : Addr) : Bool := m.getLsbD a.toNat

/-- The set that holds the address alone. -/
def setSingle (a : Addr) : StationSet := BitVec.twoPow 16 a.toNat

/-- The set of the addresses for which the test holds. -/
def setCollect (p : Addr → Bool) : StationSet :=
  BitVec.ofFnLE (fun i : Fin 16 => p (BitVec.ofFin i))

/-- Every member of the first set is in the second. -/
def setWithin (m n : StationSet) : Bool := m &&& ~~~n == 0

/-! ### Alert causes and the ALERT line -/

/-- The eight alert causes (Table 9-5). -/
inductive Cause where
  | localFirst | levelChange | chassisFirst | clearOutcome | rosterChange | stepLoss | queueLoss | busFault
  deriving DecidableEq, Repr

/-- The cause's bit in a set of alert causes (chapter 11, section 11.1). -/
def Cause.bit : Cause → Byte
  | .localFirst => 0x80
  | .levelChange => 0x40
  | .chassisFirst => 0x20
  | .clearOutcome => 0x10
  | .rosterChange => 0x08
  | .stepLoss => 0x04
  | .queueLoss => 0x02
  | .busFault => 0x01

/-- R166: ALERT is asserted while at least one pending cause is not masked. -/
def alertLine (pending mask : Byte) : Bool := pending &&& ~~~mask != 0

/-- Pending causes and mask with the ALERT line they give (R166). -/
def Alerts.of (pending mask : Byte) : Alerts :=
  { pending := pending, mask := mask, line := alertLine pending mask }

/-- R163: the cause becomes pending, masked or not; ALERT follows (R166). -/
def State.setCause (c : Cause) (s : State) : State :=
  s.withAlerts (Alerts.of (s.alerts.pending ||| c.bit) s.alerts.mask)

/-- The cause becomes pending when the condition holds. -/
def State.setCauseIf (b : Bool) (c : Cause) (s : State) : State := if b then s.setCause c else s

/-! ### Severities and levels -/

/-- The rank of a severity; the code of Table 11-1. -/
def Severity.rank : Severity → Nat
  | .minor => 1
  | .major => 2
  | .critical => 3

/-- The higher of two severities. -/
def Severity.higher (a b : Severity) : Severity := if a.rank < b.rank then b else a

/-- The level a severity maps to (R26). -/
def Severity.level : Severity → Level
  | .minor => .watch
  | .major => .contain
  | .critical => .halt

/-- The rank of a level; the code of Table 11-1. -/
def Level.rank : Level → Nat
  | .quiet => 0
  | .watch => 1
  | .contain => 2
  | .halt => 3

/-- The higher of two levels. -/
def Level.higher (a b : Level) : Level := if a.rank < b.rank then b else a

/-- The level of the highest severity in a table, QUIET for an empty one (R26). -/
def tableLevel (table : List Entry) : Level :=
  table.foldl (fun l e => l.higher e.severity.level) .quiet

/-- R26: the chassis level from the halt latch and the table. -/
def deriveLevel (halt : Bool) (table : List Entry) : Level := if halt then .halt else tableLevel table

/-! ### The driven level and the containment lines -/

/-- R17: the copy is valid in MEMBER and LEAVING. -/
def Station.valid : Station → Bool
  | .member => true
  | .leaving => true
  | .detached => false
  | .joining => false
  | .transfer => false
  | .adrift => false

/-- R17, of this station's copy. -/
def State.copyValid (s : State) : Bool := s.ctl.station.valid

/-- R36: the level the detached-level policy gives. -/
def policyLevel (p : Policy) (lastKnown : Level) : Level :=
  match p with
  | .hold => lastKnown
  | .contain => lastKnown.higher .contain
  | .halt => .halt

/-- R34: the Containment Outputs driving a level, with the three nested lines. -/
def Outputs.drive (o : Outputs) (l : Level) : Outputs :=
  { o with
    driven := l
    watch := decide (1 ≤ l.rank)
    contain := decide (2 ≤ l.rank)
    haltLine := decide (3 ≤ l.rank) }

/-- R34: the level the station has to drive. -/
def State.levelToDrive (s : State) : Level :=
  if s.copyValid then s.chassis.level else policyLevel s.outputs.policy s.outputs.lastKnown

/-- R37: the driven level is taken anew; LEVEL_CHANGE is set when it takes a different value. -/
def State.redrive (s : State) : State :=
  (s.withOutputs (s.outputs.drive s.levelToDrive)).setCauseIf
    (decide (s.levelToDrive ≠ s.outputs.driven)) .levelChange

/-- R26, R35: the chassis level is recomputed in the copy and copied into the last known level. -/
def State.relevel (s : State) : State :=
  let l := deriveLevel s.chassis.halt s.chassis.table
  (s.withChassis { s.chassis with level := l }).withOutputs { s.outputs with lastKnown := l }

end Sys2Proof.Machine
end

