-- ==== Sys2Proof/Machine/Operands.lean ====
section
/-! DEFINITION. The operand forms: value codes, frame bodies and their bits, the checks, the argument and
response bytes of the port (chapter 11). -/

namespace Sys2Proof.Machine

/-! ### Value codes (Table 11-1) -/

/-- Severity codes; 0 is none. -/
def severityOf (c : BitVec 2) : Option Severity :=
  if c = 0 then none else if c = 1 then some .minor else if c = 2 then some .major else some .critical

/-- The code of a severity. -/
def Severity.code : Severity → BitVec 2
  | .minor => 1
  | .major => 2
  | .critical => 3

/-- The code of a loss severity; 0 is NONE. -/
def lossCode : Option Severity → BitVec 2
  | none => 0
  | some s => s.code

/-- CLEAR scope codes; 3 is not well-formed. -/
def scopeOf (c : BitVec 2) : Option Scope :=
  if c = 0 then some .first else if c = 1 then some .halt else if c = 2 then some .origin else none

/-- The code of a scope. -/
def Scope.code : Scope → BitVec 2
  | .first => 0
  | .halt => 1
  | .origin => 2

/-- The code of a station state. -/
def Station.code : Station → Byte
  | .detached => 0
  | .joining => 1
  | .transfer => 2
  | .member => 3
  | .leaving => 4
  | .adrift => 5

/-- The code of a level. -/
def Level.code (l : Level) : Byte := BitVec.ofNat 8 l.rank

/-- The code of a member record state; 0 is not a member. -/
def memberCode : Option Member → BitVec 2
  | none => 0
  | some r =>
    match r.state with
    | .new => 1
    | .full => 2
    | .departing => 3

/-- The code of a local record state. -/
def LocalState.code : LocalState → Byte
  | .queued => 0
  | .inFlight => 1
  | .reported _ => 2
  | .unsent => 3

/-- The settle number of a local record: 0 unless REPORTED (Table 11-7). -/
def LocalState.settle : LocalState → Word
  | .queued => 0
  | .inFlight => 0
  | .reported n => n
  | .unsent => 0

/-- Source class codes. -/
def classOf (c : Byte) : Option SourceClass :=
  if c = 0 then some .off else if c = 1 then some .count else if c = 2 then some .minor
  else if c = 3 then some .major else if c = 4 then some .critical else none

/-- The code of a source class. -/
def SourceClass.code : SourceClass → Byte
  | .off => 0
  | .count => 1
  | .minor => 2
  | .major => 3
  | .critical => 4

/-- Mode codes. -/
def modeOf (c : Byte) : Option Mode := if c = 0 then some .edge else if c = 1 then some .level else none

/-- Polarity codes. -/
def polarityOf (c : Byte) : Option Polarity :=
  if c = 0 then some .activeLow else if c = 1 then some .activeHigh else none

/-- Detached level codes. -/
def policyOf (c : Byte) : Option Policy :=
  if c = 0 then some .hold else if c = 1 then some .contain else if c = 2 then some .halt else none

/-- On or off: 0 off, 1 on (Table 11-6). -/
def switchOf (c : Byte) : Option Bool := if c = 0 then some false else if c = 1 then some true else none

/-- Loss severity codes as a byte. -/
def lossOf (c : Byte) : Option (Option Severity) :=
  if c = 0 then some none else if c = 1 then some (some .minor) else if c = 2 then some (some .major)
  else if c = 3 then some (some .critical) else none

/-- The code of a line tracker. -/
def Tracker.code : Tracker → Byte
  | .inactive => 0
  | .qualifying => 1
  | .held => 2

/-- The code of a clear outcome; 0 is none. -/
def ClearOutcome.code : ClearOutcome → Byte
  | .done => 1
  | .stale => 2
  | .refused => 3

/-- The code of a cause of last removal. -/
def Removal.code : Removal → Byte
  | .none => 0
  | .departed => 1
  | .dropped => 2

/-- The code of a status. -/
def Status.code : Status → Byte
  | .done => 0x01
  | .busy => 0x02
  | .wrongState => 0x03
  | .badArg => 0x04
  | .locked => 0x05
  | .active => 0x06
  | .invalid => 0x07

/-! ### Frame bodies -/

/-- The content of a ROSTER (Table 5-5). `admitted` is none when the present flag is clear. -/
structure RosterBody where
  generation : BitVec 16
  members : StationSet
  departing : StationSet
  newMembers : StationSet
  admitted : Option Addr
  dropLimit : BitVec 4
  loss : Option Severity
  entries : BitVec 6
  withFirst : Bool
  deriving DecidableEq, Repr

/-- What a good body carries, by kind. A SNAP's payload after its index is kept as bits: the joiner alone reads
them, by the layout it expects (chapter 11, note to Table 11-3). -/
inductive Body where
  | notice (n : Notice)
  | join
  | roster (r : RosterBody)
  | snap (index : BitVec 6) (content : BitVec 90)
  deriving DecidableEq, Repr

/-- A frame up to its frame check. -/
structure Frame where
  urgency : BitVec 3
  sender : Addr
  body : Body
  deriving DecidableEq, Repr

/-- The content of a header SNAP after its index (R109). -/
structure Header where
  total : BitVec 6
  settle : Word
  halt : Bool
  dropped : BitVec 16
  sinceFirst : BitVec 16
  deriving DecidableEq, Repr

/-! ### Payload layouts (Table 11-3) -/

/-- The FAULT payload. -/
def Report.payload (r : Report) : PayloadBits :=
  r.source ++ r.severity.code ++ r.occurrences ++ r.detail ++ r.number ++ 0#32

/-- The CLEAR payload. -/
def clearPayload (scope : Scope) (origin : Addr) (reference : Word) : PayloadBits :=
  scope.code ++ origin ++ reference ++ 0#58

/-- The ROSTER payload; an absent admitted station is sent as 0 with the flag clear. -/
def RosterBody.payload (r : RosterBody) : PayloadBits :=
  r.generation ++ r.members ++ r.departing ++ r.newMembers ++ r.admitted.getD 0
    ++ BitVec.ofBool r.admitted.isSome ++ r.dropLimit ++ lossCode r.loss ++ r.entries
    ++ BitVec.ofBool r.withFirst ++ 0#14

/-- The header SNAP's 90 bits after its index. -/
def Header.content (h : Header) : BitVec 90 :=
  h.total ++ h.settle ++ BitVec.ofBool h.halt ++ h.dropped ++ h.sinceFirst ++ 0#19

/-- The first-record SNAP's 90 bits after its index. -/
def First.content (f : First) : BitVec 90 :=
  f.origin ++ f.source ++ f.severity.code ++ f.settle ++ f.detail ++ 0#14

/-- The entry SNAP's 90 bits after its index. -/
def Entry.content (e : Entry) : BitVec 90 :=
  e.origin ++ e.source ++ e.severity.code ++ e.occurrences ++ e.firstSettle ++ e.detail
    ++ BitVec.ofBool e.absent ++ 0#5

/-- The kind code of a body (Table 11-1). -/
def Body.kind : Body → BitVec 3
  | .notice (.fault _) => 0
  | .notice (.resolve _) => 1
  | .notice (.clear _ _ _) => 2
  | .notice .leave => 3
  | .join => 4
  | .roster _ => 5
  | .snap _ _ => 6

/-- The payload of a body (Table 11-3); unused payload bits are 0. -/
def Body.payload : Body → PayloadBits
  | .notice (.fault r) => r.payload
  | .notice (.resolve source) => source ++ 0#90
  | .notice (.clear scope origin reference) => clearPayload scope origin reference
  | .notice .leave => 0
  | .join => 0
  | .roster r => r.payload
  | .snap index content => index ++ content

/-- R7: a FAULT payload, when it is well-formed. -/
def readReport (p : PayloadBits) : Option Report :=
  match severityOf (p.extractLsb' 88 2) with
  | none => none
  | some severity =>
    let source := p.extractLsb' 90 6
    let occurrences := p.extractLsb' 80 8
    if source < 32 ∧ occurrences ≠ 0 then
      some { source, severity, occurrences, detail := p.extractLsb' 48 32, number := p.extractLsb' 32 16 }
    else none

/-- R12: a RESOLVE payload, when it is well-formed. -/
def readResolve (p : PayloadBits) : Option (BitVec 6) :=
  let source := p.extractLsb' 90 6
  if source ≤ 32 then some source else none

/-- R28: a CLEAR payload, when it is well-formed. -/
def readClear (p : PayloadBits) : Option Notice :=
  match scopeOf (p.extractLsb' 94 2) with
  | none => none
  | some scope => some (.clear scope (p.extractLsb' 90 4) (p.extractLsb' 58 32))

/-- The combined conditions of R94. -/
def RosterBody.wellFormed (r : RosterBody) : Bool :=
  decide (r.members ≠ 0)
    && decide (r.departing &&& r.members = 0)
    && setWithin r.newMembers r.members
    && decide (2 ≤ r.dropLimit) && decide (r.dropLimit ≤ 8)
    && decide (r.entries ≤ 32)
    && (match r.admitted with
        | some a => setHas r.members a && setHas r.newMembers a && decide (r.departing = 0)
        | none => decide (r.entries = 0) && !r.withFirst)

/-- R94: a ROSTER payload, when it is well-formed. -/
def readRoster (p : PayloadBits) : Option RosterBody :=
  let present := p.getLsbD 27
  let r : RosterBody :=
    { generation := p.extractLsb' 80 16, members := p.extractLsb' 64 16, departing := p.extractLsb' 48 16,
      newMembers := p.extractLsb' 32 16,
      admitted := if present then some (p.extractLsb' 28 4) else none,
      dropLimit := p.extractLsb' 23 4, loss := severityOf (p.extractLsb' 21 2),
      entries := p.extractLsb' 15 6, withFirst := p.getLsbD 14 }
  if r.wellFormed ∧ (present ∨ p.extractLsb' 28 4 = 0#4) then some r else none

/-- A header SNAP's fields. -/
def readHeader (c : BitVec 90) : Header :=
  { total := c.extractLsb' 84 6, settle := c.extractLsb' 52 32, halt := c.getLsbD 51,
    dropped := c.extractLsb' 35 16, sinceFirst := c.extractLsb' 19 16 }

/-- A first-record SNAP's fields, when in range at the joiner (R112). -/
def readFirst (c : BitVec 90) : Option First :=
  match severityOf (c.extractLsb' 78 2) with
  | none => none
  | some severity =>
    let source := c.extractLsb' 80 6
    if source ≤ 32 then
      some { origin := c.extractLsb' 86 4, source, severity, settle := c.extractLsb' 46 32,
             detail := c.extractLsb' 14 32 }
    else none

/-- An entry SNAP's fields, when in range at the joiner (R112); the test for a second entry with the same
origin and source is made against the joiner's table. -/
def readEntry (c : BitVec 90) : Option Entry :=
  match severityOf (c.extractLsb' 78 2) with
  | none => none
  | some severity =>
    let source := c.extractLsb' 80 6
    let occurrences := c.extractLsb' 70 8
    if source ≤ 32 ∧ occurrences ≠ 0 then
      some { origin := c.extractLsb' 86 4, source, severity, firstSettle := c.extractLsb' 38 32, occurrences,
             detail := c.extractLsb' 6 32, absent := c.getLsbD 5 }
    else none

/-- R110: the body of a SNAP payload, when it is well-formed. -/
def readSnap (p : PayloadBits) : Option Body :=
  let index := p.extractLsb' 90 6
  let content := p.extractLsb' 0 90
  let total := (readHeader content).total
  if index ≤ 33 ∧ (index ≠ 0 ∨ (1 ≤ total ∧ total ≤ 34)) then some (.snap index content) else none

/-- R47: what a payload of a kind carries; none when the kind is the invalid value or the payload is not
well-formed for its kind. -/
def readBody (kind : BitVec 3) (p : PayloadBits) : Option Body :=
  if kind = 0 then (readReport p).map (fun r => .notice (.fault r))
  else if kind = 1 then (readResolve p).map (fun n => .notice (.resolve n))
  else if kind = 2 then (readClear p).map .notice
  else if kind = 3 then some (.notice .leave)
  else if kind = 4 then some .join
  else if kind = 5 then (readRoster p).map .roster
  else if kind = 6 then readSnap p
  else none

/-! ### The checks (R177) -/

/-- One input bit into the shift register. -/
def crcStep {w : Nat} (poly : BitVec w) (reg : BitVec w) (bit : Bool) : BitVec w :=
  if xor reg.msb bit then (reg <<< 1) ^^^ poly else reg <<< 1

/-- The check over a run of bits, in the order they are sent. -/
def crc {w : Nat} (poly preset : BitVec w) (bits : List Bool) : BitVec w :=
  bits.foldl (crcStep poly) preset

/-- The bits of a field, most significant first (R176). -/
def sendOrder {n : Nat} (x : BitVec n) : List Bool := (List.range n).map (fun i => x.getMsbD i)

/-- The frame check of the 106 bits from urgency to payload (Table 11-4). -/
def frameCheck (x : BitVec 106) : BitVec 16 := crc 0x1021#16 0xFFFF#16 (sendOrder x)

/-- The 16 echo bits in order, slot 0 first: dominant (0) for an acknowledged slot (R176). -/
def echoBits (echo : StationSet) : List Bool := allAddrs.map (fun a => !setHas echo a)

/-- The echo check of an echo (Table 11-4). -/
def echoCheck (echo : StationSet) : Byte := crc 0x07#8 0x00#8 (echoBits echo)

/-! ### Whole bodies (Table 11-2) -/

/-- Urgency, sender, kind and payload, positions 2 to 107. -/
def Frame.content (f : Frame) : BitVec 106 := f.urgency ++ f.sender ++ f.body.kind ++ f.body.payload

/-- The bits of positions 2 to 123, frame check included. -/
def Frame.bits (f : Frame) : BodyBits := f.content ++ frameCheck f.content

/-- R47: the frame of a good body; none when the body is bad. -/
def readFrame (bits : BodyBits) : Option Frame :=
  let content : BitVec 106 := bits.extractLsb' 16 106
  if frameCheck content = bits.extractLsb' 0 16 then
    (readBody (content.extractLsb' 96 3) (content.extractLsb' 0 96)).map
      (fun body => { urgency := content.extractLsb' 103 3, sender := content.extractLsb' 99 4, body })
  else none

/-! ### Port bytes (R178) -/

/-- A 16-bit value, most significant byte first. -/
def bytes16 (x : BitVec 16) : List Byte := [x.extractLsb' 8 8, x.extractLsb' 0 8]

/-- A 32-bit value, most significant byte first. -/
def bytes32 (x : Word) : List Byte :=
  [x.extractLsb' 24 8, x.extractLsb' 16 8, x.extractLsb' 8 8, x.extractLsb' 0 8]

/-- Four argument bytes as a 32-bit value. -/
def word32 (a b c d : Byte) : Word := a ++ b ++ c ++ d

/-- 0 or 1. -/
def flagByte (b : Bool) : Byte := if b then 1 else 0

/-- A narrower value in one byte. -/
def byteOf {w : Nat} (x : BitVec w) : Byte := x.setWidth 8

/-- A source argument in the range 0 to 31. -/
def sourceArg (b : Byte) : Option (Fin 32) :=
  if h : b.toNat < 32 then some ⟨b.toNat, h⟩ else none

/-- A source that is a line: 0 to 23 (Table 7-2). -/
def lineOf (n : Fin 32) : Option (Fin 24) := if h : n.val < 24 then some ⟨n.val, h⟩ else none

/-- The bytes of a stored response, from byte 0 (R178). -/
def Response.bytes (r : Response) : List Byte := r.code :: r.count :: r.status.code :: r.data

/-- What the response buffer shifts out first: the stored response, or the empty response 00h 00h 00h. -/
def responseBytes : Option Response → List Byte
  | none => [0, 0, 0]
  | some r => r.bytes

/-- R151, R178: the bytes shifted out in a transaction of n bytes: the stored response as far as it is clocked,
then the idle byte FFh. -/
def shiftOut (r : Option Response) (n : Nat) : List Byte :=
  (responseBytes r ++ List.replicate n 0xFF#8).take n

end Sys2Proof.Machine
end

