-- ==== Sys2Proof/Machine/Notice.lean ====
section
/-! DEFINITION. The outbound notice queue and the records of the Local Fault Log, each by itself (chapters 4
and 8). -/

namespace Sys2Proof.Machine

/-! ### Items (R60) -/

/-- The class of a FAULT's severity (Table 4-1). -/
def Severity.urgency : Severity → Nat
  | .critical => 1
  | .major => 2
  | .minor => 3

/-- R60: the base urgency of a notice; a lower value is the more urgent. -/
def Notice.urgency : Notice → Nat
  | .clear _ _ _ => 1
  | .fault r => r.severity.urgency
  | .resolve _ => 3
  | .leave => 4

/-- The kind code of a notice (Table 11-1). -/
def Notice.kind : Notice → Byte
  | .fault _ => 0
  | .resolve _ => 1
  | .clear _ _ _ => 2
  | .leave => 3

/-- The notice is a FAULT for the source. -/
def Notice.isFault (source : BitVec 6) : Notice → Bool
  | .fault r => decide (r.source = source)
  | .resolve _ => false
  | .clear _ _ _ => false
  | .leave => false

/-- The notice is a RESOLVE for the source. -/
def Notice.isResolve (source : BitVec 6) : Notice → Bool
  | .resolve n => decide (n = source)
  | .fault _ => false
  | .clear _ _ _ => false
  | .leave => false

/-- The notice is a LEAVE. -/
def Notice.isLeave : Notice → Bool
  | .leave => true
  | .fault _ => false
  | .resolve _ => false
  | .clear _ _ _ => false

/-- R61: an item stands ahead of another by base urgency, and among equals by age. -/
def Item.ahead (a b : Item) : Bool :=
  decide (a.notice.urgency < b.notice.urgency)
    || (decide (a.notice.urgency = b.notice.urgency) && decide (a.age < b.age))

/-- R62, R63: an item is placed among waiting items by base urgency and age. -/
def placeItem (i : Item) : List Item → List Item
  | [] => [i]
  | x :: rest => if i.ahead x then i :: x :: rest else x :: placeItem i rest

/-- R66: the youngest of the least urgent class. -/
def lastInOrder : List Item → Option Item
  | [] => none
  | x :: rest =>
    match lastInOrder rest with
    | none => some x
    | some y => if x.ahead y then some y else some x

/-- The item without its local record link, when it is a FAULT for the source (R64). -/
def Item.unlink (source : BitVec 6) (i : Item) : Item :=
  if i.notice.isFault source then { i with linked := false } else i

/-- R63, R64: a FAULT merged into an earlier one for the same source. -/
def Report.merge (older younger : Report) (youngerLinked : Bool) : Report :=
  { source := older.source
    severity := older.severity.higher younger.severity
    occurrences := satAdd older.occurrences younger.occurrences
    detail := younger.detail
    number := if youngerLinked then younger.number else older.number }

/-! ### The queue (R61 to R68) -/

/-- The queue holds at most 8 items (R61). -/
def queueCapacity : Nat := 8

/-- The items of the queue, head first. -/
def Queue.items (q : Queue) : List Item :=
  match q.inFlight with
  | some h => h.item :: q.waiting
  | none => q.waiting

/-- The number of items in the queue. -/
def Queue.count (q : Queue) : Nat := q.items.length

/-- R64: any item linked to the record of a source loses its link. -/
def Queue.unlink (q : Queue) (source : BitVec 6) : Queue :=
  { q with
    inFlight := q.inFlight.map (fun h => { h with item := h.item.unlink source })
    waiting := q.waiting.map (Item.unlink source) }

/-- What the queue answers to an arrival: the queue after it, whether the notice is in the queue, and the item
displaced. -/
structure Answer where
  queue : Queue
  taken : Bool
  displaced : Option Item
  deriving DecidableEq, Repr

/-- R62, R66, R67: an arrival that needs a new item. -/
def Queue.insert (q : Queue) (n : Notice) (linked : Bool) : Answer :=
  let i : Item := { notice := n, linked, age := q.nextAge }
  if q.count < queueCapacity then
    { queue := { q with waiting := placeItem i q.waiting, nextAge := q.nextAge + 1 }, taken := true,
      displaced := none }
  else
    match lastInOrder q.waiting with
    | none => { queue := q, taken := false, displaced := none }
    | some w =>
      if n.urgency < w.notice.urgency then
        { queue := { q with waiting := placeItem i (q.waiting.erase w), nextAge := q.nextAge + 1 },
          taken := true, displaced := some w }
      else { queue := q, taken := false, displaced := none }

/-- R65: a waiting RESOLVE for a source is cancelled. -/
def Queue.cancelResolve (q : Queue) (source : BitVec 6) : Queue :=
  { q with waiting := q.waiting.filter (fun i => !i.notice.isResolve source) }

/-- R63: a FAULT merged into the waiting item `old` for its source, which is re-placed. -/
def Queue.mergeInto (q : Queue) (old : Item) (older younger : Report) (linked : Bool) : Queue :=
  { q with
    waiting := placeItem
      { notice := .fault (older.merge younger linked), linked := linked || old.linked, age := old.age }
      (q.waiting.erase old) }

/-- R63 to R67: a FAULT arrives. A linked FAULT that is placed or merged takes the link from every other item. -/
def Queue.offerFault (q : Queue) (r : Report) (linked : Bool) : Answer :=
  let q := if linked then (q.cancelResolve r.source).unlink r.source else q.cancelResolve r.source
  match q.waiting.find? (fun i => i.notice.isFault r.source) with
  | some old =>
    match old.notice with
    | .fault older => { queue := q.mergeInto old older r linked, taken := true, displaced := none }
    | .resolve _ => q.insert (.fault r) linked
    | .clear _ _ _ => q.insert (.fault r) linked
    | .leave => q.insert (.fault r) linked
  | none => q.insert (.fault r) linked

/-- R65 to R67: a RESOLVE arrives. -/
def Queue.offerResolve (q : Queue) (source : BitVec 6) : Answer :=
  if q.waiting.any (fun i => i.notice.isResolve source) then { queue := q, taken := true, displaced := none }
  else q.insert (.resolve source) false

/-- R65 to R67: a LEAVE arrives. -/
def Queue.offerLeave (q : Queue) : Answer :=
  if q.items.any (fun i => i.notice.isLeave) then { queue := q, taken := true, displaced := none }
  else q.insert .leave false

/-- R65 to R67: a CLEAR arrives; it never merges. -/
def Queue.offerClear (q : Queue) (scope : Scope) (origin : Addr) (reference : Word) : Answer :=
  q.insert (.clear scope origin reference) false

/-- R68: the queue loss count increases by one. -/
def Queue.lose (q : Queue) : Queue := { q with loss := satInc q.loss }

/-! ### The head (R69 to R75) -/

/-- R60: an item in flight for the first time. -/
def Head.start (i : Item) : Head :=
  { item := i, transmissions := 0, losses := 0, urgency := i.notice.urgency, agingDue := false }

/-- R69: the head's first arbitration makes it in flight; a head in flight stays as it is. -/
def Queue.startHead (q : Queue) : Queue :=
  match q.inFlight, q.waiting with
  | some _, _ => q
  | none, [] => q
  | none, i :: rest => { q with inFlight := some (Head.start i), waiting := rest }

/-- R71: an arbitration loss of the head; the eighth makes HEAD_AGING due (log 5). -/
def Head.loseArbitration (h : Head) : Head :=
  if 7 ≤ h.losses then { h with agingDue := true } else { h with losses := h.losses + 1 }

/-- R71: the head ages: the count returns to 0 and the urgency improves by one class, not below 1. -/
def Head.ages (h : Head) : Head :=
  { h with losses := 0, urgency := if 1 < h.urgency then h.urgency - 1 else h.urgency, agingDue := false }

/-- R71, R72: a transmission reported broken, or complete and unsettled. -/
def Head.transmitted (h : Head) : Head :=
  { h with transmissions := h.transmissions + 1, losses := 0, urgency := h.item.notice.urgency,
           agingDue := false }

/-- The queue with its head in flight changed. -/
def Queue.modifyHead (q : Queue) (f : Head → Head) : Queue := { q with inFlight := q.inFlight.map f }

/-- R61, R73: an item takes its place among the waiting items again, with the counts of a new item. A FAULT merges with a
waiting FAULT of its source, of which the queue holds no two (log 10). -/
def rejoinAmong (i : Item) (waiting : List Item) : List Item :=
  match i.notice with
  | .fault older =>
    match waiting.find? (fun x => x.notice.isFault older.source) with
    | some x =>
      match x.notice with
      | .fault younger =>
        placeItem { notice := .fault (older.merge younger x.linked), linked := x.linked || i.linked, age := i.age }
          (waiting.erase x)
      | .resolve _ => placeItem i waiting
      | .clear _ _ _ => placeItem i waiting
      | .leave => placeItem i waiting
    | none => placeItem i waiting
  | .resolve _ => placeItem i waiting
  | .clear _ _ _ => placeItem i waiting
  | .leave => placeItem i waiting

/-- R75: an item returned by leaving the chassis meets the waiting items of its source. The spec does not say what holds
for a RESOLVE that meets both a FAULT and a younger RESOLVE of its source: the model cancels the returned RESOLVE and
leaves the two as they are (DESIGN CHOICE, log 35). -/
def returnAmong (i : Item) (waiting : List Item) : List Item :=
  match i.notice with
  | .resolve source =>
    if waiting.any (fun x => x.notice.isFault source) then waiting
    else rejoinAmong i (waiting.filter (fun x => !x.notice.isResolve source))
  | .fault _ => rejoinAmong i waiting
  | .clear _ _ _ => rejoinAmong i waiting
  | .leave => rejoinAmong i waiting

/-- The item in flight, if any, goes back among the waiting items. -/
def Queue.headBack (among : Item → List Item → List Item) (q : Queue) : Queue :=
  match q.inFlight with
  | none => q
  | some h => { q with inFlight := none, waiting := among h.item q.waiting }

/-- R75: the item in flight returns to waiting when the station leaves MEMBER or LEAVING. -/
def Queue.returnHead (q : Queue) : Queue := q.headBack returnAmong

/-- R73: the item in flight returns to waiting at the retry limit; it is not lost. -/
def Queue.retryHead (q : Queue) : Queue := q.headBack rejoinAmong

/-- R74: the settled head leaves the queue. -/
def Queue.settleHead (q : Queue) : Queue := { q with inFlight := none }

/-- The source of the local record an item is linked to. -/
def Item.link (i : Item) : Option (BitVec 6) :=
  match i.notice with
  | .fault r => if i.linked then some r.source else none
  | .resolve _ => none
  | .clear _ _ _ => none
  | .leave => none

/-- The source of the local record the item in flight is linked to. -/
def Queue.headLink (q : Queue) : Option (BitVec 6) :=
  match q.inFlight with
  | some h => h.item.link
  | none => none

/-- R78: the queue emptied at a board reset; the loss count is kept. -/
def Queue.boardReset (q : Queue) : Queue := { q with inFlight := none, waiting := [] }

/-! ### Local records (R137 to R143) -/

/-- The next list holds at most 8 records (R138). -/
def nextCapacity : Nat := 8

/-- The record of a source, in the first record or the next list. -/
def Log.find (l : Log) (source : BitVec 5) : Option Record :=
  match l.first with
  | some r => if r.source = source then some r else l.next.find? (fun x => decide (x.source = source))
  | none => l.next.find? (fun x => decide (x.source = source))

/-- The log with the record of a source changed. -/
def Log.modify (l : Log) (source : BitVec 5) (f : Record → Record) : Log :=
  { l with
    first := l.first.map (fun r => if r.source = source then f r else r)
    next := l.next.map (fun r => if r.source = source then f r else r) }

/-- R143: the record of a source takes a state. -/
def Log.setState (l : Log) (source : BitVec 6) (st : LocalState) : Log :=
  if source < 32 then l.modify (source.setWidth 5) (fun r => { r with state := st }) else l

/-- R137: the next local record number; the counter wraps from 65535 to 1. -/
def Log.nextNumber (l : Log) : BitVec 16 := if l.counter = 0xFFFF then 1 else l.counter + 1

/-- R137: the record a raised fault creates. -/
def Log.newRecord (l : Log) (source : BitVec 5) (severity : Severity) (detail : Word) : Record :=
  { number := l.nextNumber, source, severity, occurrences := 1, detail, state := .queued }

/-- R140: a record after a fault coalesces into it; its state follows from the queue's answer. -/
def Record.coalesce (r : Record) (severity : Severity) (detail : Word) : Record :=
  { r with severity := r.severity.higher severity, occurrences := satInc r.occurrences, detail := detail }

/-- The FAULT content that carries a whole record (R142, R146). -/
def Record.report (r : Record) : Report :=
  { source := r.source.setWidth 6, severity := r.severity, occurrences := r.occurrences, detail := r.detail,
    number := r.number }

/-- What the log does with a raised fault: the log after it, the notice it offers, whether the notice has a
link, and whether the first record was written (R139 to R142). -/
structure Logged where
  log : Log
  report : Report
  linked : Bool
  firstWritten : Bool
  deriving DecidableEq, Repr

/-- Table 8-2: the content for a fault that coalesced into a record, by the record's state before it. -/
def coalescedReport (before : Record) (severity : Severity) (detail : Word) : Report :=
  match before.state with
  | .unsent => (before.coalesce severity detail).report
  | .queued | .inFlight | .reported _ =>
    { source := before.source.setWidth 6, severity, occurrences := 1, detail, number := before.number }

/-- R139 to R142: a raised fault reaches the log. -/
def Log.take (l : Log) (source : BitVec 5) (severity : Severity) (detail : Word) : Logged :=
  let fresh := l.newRecord source severity detail
  match l.first with
  | none =>
    { log := { l with first := some fresh, counter := l.nextNumber }, report := fresh.report, linked := true,
      firstWritten := true }
  | some _ =>
    match l.find source with
    | some before =>
      { log := l.modify source (fun r => r.coalesce severity detail),
        report := coalescedReport before severity detail, linked := true, firstWritten := false }
    | none =>
      if l.next.length < nextCapacity then
        { log := { l with next := l.next ++ [fresh], counter := l.nextNumber }, report := fresh.report,
          linked := true, firstWritten := false }
      else
        { log := { l with overflow := satInc l.overflow },
          report := { fresh.report with number := 0 }, linked := false, firstWritten := false }

/-- The records of the log, first record first. -/
def Log.records (l : Log) : List Record :=
  match l.first with
  | some r => r :: l.next
  | none => l.next

/-- R145: the log after its first record is removed and the oldest next record promoted. -/
def Log.promote (l : Log) : Log :=
  match l.next with
  | [] => { l with first := none }
  | r :: rest => { l with first := some r, next := rest }

/-- R148: a record at board reset: QUEUED or IN_FLIGHT becomes UNSENT. -/
def Record.boardReset (r : Record) : Record :=
  match r.state with
  | .queued => { r with state := .unsent }
  | .inFlight => { r with state := .unsent }
  | .reported _ => r
  | .unsent => r

/-- R148: the log at board reset. -/
def Log.boardReset (l : Log) : Log :=
  { l with first := l.first.map Record.boardReset, next := l.next.map Record.boardReset }

end Sys2Proof.Machine
end

