-- ==== Sys2Proof/Machine/Record.lean ====
section
/-! DEFINITION. The chassis copy: the fault table, the first record, the halt latch, clearing, the roster, and
what each settled frame does to them (chapters 1, 2 and 5). -/

namespace Sys2Proof.Machine

/-! ### Member records and the member map -/

/-- The member record of an address; none when it is not a member. -/
def Chassis.record (c : Chassis) (a : Addr) : Option Member := c.records[a.toNat]'a.isLt

/-- Sixteen records, one for each address. -/
def recordsOf (f : Addr → Option Member) : Vector (Option Member) 16 :=
  Vector.ofFn (fun i : Fin 16 => f (BitVec.ofFin i))

/-- The member map (Table 5-1). -/
def Chassis.map (c : Chassis) : StationSet := setCollect (fun a => (c.record a).isSome)

/-- The members whose record satisfies the test. -/
def Chassis.mapWhere (c : Chassis) (p : Member → Bool) : StationSet :=
  setCollect (fun a => match c.record a with
    | some r => p r
    | none => false)

/-- R83: a member's miss count is equal to or greater than the drop limit. -/
def Chassis.suspect (c : Chassis) (r : Member) : Bool := decide (c.dropLimit ≤ r.miss)

/-- R84: the lowest-address FULL member with miss count below the drop limit. -/
def Chassis.rosterStation (c : Chassis) : Option Addr :=
  allAddrs.find? (fun a => match c.record a with
    | some r => decide (r.state = .full) && !c.suspect r
    | none => false)

/-- The member record with another record state; an address without a record stays without one (R81). -/
def Chassis.setMemberState (c : Chassis) (a : Addr) (st : MemberState) : Chassis :=
  { c with records := recordsOf (fun b =>
      if b = a then (c.record b).map (fun r => { r with state := st }) else c.record b) }

/-- R55: the miss counts of every member from an echo that shows at least one member acknowledged. -/
def Chassis.countMisses (c : Chassis) (echo : StationSet) : Chassis :=
  if echo &&& c.map = 0 then c
  else
    { c with records := recordsOf (fun a =>
        (c.record a).map (fun r => { r with miss := if setHas echo a then 0 else satInc r.miss })) }

/-! ### The fault table (R1, R2, R8 to R12) -/

/-- The number of entries the chassis fault table has room for (R2). -/
def tableCapacity : Nat := 32

/-- Entries are identified by origin and source (section 1.1). -/
def Entry.same (e x : Entry) : Bool := decide (x.origin = e.origin) && decide (x.source = e.source)

/-- R8: the entry after an arrival for its origin and source. -/
def Entry.coalesce (x e : Entry) : Entry :=
  { x with
    severity := x.severity.higher e.severity
    occurrences := satAdd x.occurrences e.occurrences
    detail := e.detail }

/-- The lowest severity among entries; none for an empty table. -/
def lowestSeverity : List Entry → Option Severity
  | [] => none
  | e :: rest =>
    match lowestSeverity rest with
    | none => some e.severity
    | some s => some (if s.rank < e.severity.rank then s else e.severity)

/-- R10: the table less the oldest entry of the lowest severity present, when that is below the new one's. -/
def evictFor (severity : Severity) (table : List Entry) : Option (List Entry) :=
  match lowestSeverity table with
  | none => none
  | some low =>
    if low.rank < severity.rank then some (table.eraseP (fun x => decide (x.severity = low))) else none

/-- R8 to R11: an arrival coalesces, is placed at the end, is placed after an eviction, or is dropped. -/
def Chassis.place (c : Chassis) (e : Entry) : Chassis :=
  if c.table.any e.same then
    { c with table := c.table.map (fun x => if e.same x then x.coalesce e else x) }
  else if c.table.length < tableCapacity then { c with table := c.table ++ [e] }
  else
    match evictFor e.severity c.table with
    | some t => { c with table := t ++ [e] }
    | none => { c with dropped := satInc c.dropped }

/-- R21, R22: an arrival is offered to the chassis first record with what it carries. -/
def Chassis.offerFirst (c : Chassis) (e : Entry) : Chassis :=
  match c.first with
  | none =>
    { c with first := some { origin := e.origin, source := e.source, severity := e.severity,
                             settle := e.firstSettle, detail := e.detail } }
  | some _ => { c with sinceFirst := satInc c.sinceFirst }

/-- R24: the halt latch is set when the arrival leaves its entry with severity CRITICAL. -/
def Chassis.latchFor (c : Chassis) (e : Entry) : Chassis :=
  { c with halt := c.halt || c.table.any (fun x => e.same x && decide (x.severity = .critical)) }

/-- An arrival, from a settled FAULT or a LOSS creation, through table, first record and latch. `e` is the entry
it would create; its first settle is the frame settle number. -/
def Chassis.arrive (c : Chassis) (e : Entry) : Chassis := ((c.place e).offerFirst e).latchFor e

/-- R4: the frame settle number of the next settled frame. -/
def Chassis.nextSettle (c : Chassis) : Word := c.settle + 1

/-- The entry a settled FAULT would create (R1). -/
def Chassis.faultEntry (c : Chassis) (sender : Addr) (r : Report) : Entry :=
  { origin := sender, source := r.source, severity := r.severity, firstSettle := c.nextSettle,
    occurrences := r.occurrences, detail := r.detail, absent := false }

/-- Source number 32, LOSS (section 1.1). -/
def lossSource : BitVec 6 := 32

/-- The LOSS entry of a removed station, before the absent flags are set (R1, R13). -/
def lossEntry (station : Addr) (severity : Severity) (settle : Word) : Entry :=
  { origin := station, source := lossSource, severity, firstSettle := settle, occurrences := 1, detail := 0,
    absent := true }

/-- R12: the entry (sender, source) leaves the table. -/
def Chassis.removeEntry (c : Chassis) (origin : Addr) (source : BitVec 6) : Chassis :=
  { c with table := c.table.filter (fun x => !(decide (x.origin = origin) && decide (x.source = source))) }

/-! ### Clearing (R29 to R31) -/

/-- The table holds a CRITICAL entry. -/
def Chassis.hasCritical (c : Chassis) : Bool := c.table.any (fun x => decide (x.severity = .critical))

/-- Table 2-4: the outcome of a settled CLEAR from the copy before it. -/
def Chassis.clearOutcome (c : Chassis) (sender : Addr) (scope : Scope) (origin : Addr) (reference : Word) :
    ClearOutcome :=
  match scope with
  | .first =>
    match c.first with
    | some f => if f.settle = reference then .done else .stale
    | none => .stale
  | .halt => if c.hasCritical then .refused else .done
  | .origin => if (c.record origin).isSome || decide (origin = sender) then .refused else .done

/-- The changes of a DONE outcome. -/
def Chassis.clearDone (c : Chassis) (scope : Scope) (origin : Addr) : Chassis :=
  match scope with
  | .first => { c with first := none, sinceFirst := 0 }
  | .halt => { c with halt := false }
  | .origin => { c with table := c.table.filter (fun x => decide (x.origin ≠ origin)) }

/-- R28: a settled CLEAR, but for settle number and level. -/
def Chassis.applyClear (c : Chassis) (sender : Addr) (scope : Scope) (origin : Addr) (reference : Word) :
    Chassis :=
  match c.clearOutcome sender scope origin reference with
  | .done => c.clearDone scope origin
  | .stale => c
  | .refused => c

/-! ### ROSTER (R13 to R15, R80 to R82, R95) -/

/-- R95, R81: the record a ROSTER leaves an address. Every miss count is 0 (R15). -/
def RosterBody.recordFor (r : RosterBody) (a : Addr) : Option Member :=
  if setHas r.members a then some { state := if setHas r.newMembers a then .new else .full, miss := 0 } else none

/-- The adoption step of R15 and the miss counts: what a member, and a joiner (R96), takes from a ROSTER. -/
def Chassis.adopt (c : Chassis) (r : RosterBody) : Chassis :=
  { c with
    generation := r.generation
    records := recordsOf r.recordFor
    dropLimit := r.dropLimit
    loss := r.loss }

/-- R13: the stations lost to the chassis, in ascending order of address. -/
def Chassis.lostBy (c : Chassis) (r : RosterBody) : List Addr :=
  allAddrs.filter (fun a => !setHas r.members a &&
    (match c.record a with
     | some m => decide (m.state = .full)
     | none => false))

/-- R13: the LOSS creations of a ROSTER, none when the carried loss severity is NONE. -/
def Chassis.createLosses (c : Chassis) (lost : List Addr) (severity : Option Severity) (settle : Word) :
    Chassis :=
  match severity with
  | none => c
  | some sev => lost.foldl (fun c a => c.arrive (lossEntry a sev settle)) c

/-- R14: the absent flag of every entry from the new member map. -/
def Chassis.markAbsent (c : Chassis) (members : StationSet) : Chassis :=
  { c with table := c.table.map (fun x => { x with absent := !setHas members x.origin }) }

/-- R15, steps 1 to 4. -/
def Chassis.applyRoster (c : Chassis) (r : RosterBody) : Chassis :=
  ((c.adopt r).createLosses (c.lostBy r) r.loss c.nextSettle).markAbsent r.members

/-! ### Settlement at a MEMBER or LEAVING station (R54, Table 1-4) -/

/-- What a settled frame's content does to a valid copy, but for settle number and level. A SNAP leaves the copy
of a member unchanged; a JOIN never settles. -/
def Chassis.applyBody (c : Chassis) (sender : Addr) (b : Body) : Chassis :=
  match b with
  | .notice (.fault r) => c.arrive (c.faultEntry sender r)
  | .notice (.resolve source) => c.removeEntry sender source
  | .notice (.clear scope origin reference) => c.applyClear sender scope origin reference
  | .notice .leave => c.setMemberState sender .departing
  | .roster r => c.applyRoster r
  | .join => c
  | .snap _ _ => c

/-- R4: the kinds that receive a frame settle number. -/
def Body.numbered : Body → Bool
  | .notice _ => true
  | .roster _ => true
  | .join => false
  | .snap _ _ => false

/-- The application of a settled frame to a valid copy: effects, settle number (R4), level (R26). -/
def Chassis.apply (c : Chassis) (sender : Addr) (b : Body) : Chassis :=
  if b.numbered then
    let d := c.applyBody sender b
    { d with settle := c.nextSettle, level := deriveLevel d.halt d.table }
  else c.applyBody sender b

/-! ### What the roster station builds (R88 to R90, R109) -/

/-- The members that are suspect. -/
def Chassis.suspects (c : Chassis) : StationSet := c.mapWhere c.suspect

/-- The members whose record is in a state. -/
def Chassis.inState (c : Chassis) (st : MemberState) : StationSet := c.mapWhere (fun r => decide (r.state = st))

/-- R89: the ROSTER that removes a set of members. -/
def Chassis.removingRoster (c : Chassis) (removed : StationSet) : RosterBody :=
  { generation := c.generation + 1
    members := c.map &&& ~~~removed
    departing := removed &&& c.inState .departing
    newMembers := c.inState .new &&& ~~~removed
    admitted := none
    dropLimit := c.dropLimit
    loss := c.loss
    entries := 0
    withFirst := false }

/-- R90: the ROSTER that admits a station. -/
def Chassis.admittingRoster (c : Chassis) (a : Addr) : RosterBody :=
  { generation := c.generation + 1
    members := c.map ||| setSingle a
    departing := 0
    newMembers := c.inState .new ||| setSingle a
    admitted := some a
    dropLimit := c.dropLimit
    loss := c.loss
    entries := BitVec.ofNat 6 c.table.length
    withFirst := c.first.isSome }

/-- R91, R111, R114: the total SNAP count of an admission. -/
def snapTotal (withFirst : Bool) (entries : BitVec 6) : BitVec 6 :=
  1 + (if withFirst then 1 else 0) + entries

/-- The header SNAP of a copy (R109). -/
def Chassis.header (c : Chassis) : Header :=
  { total := snapTotal c.first.isSome (BitVec.ofNat 6 c.table.length)
    settle := c.settle
    halt := c.halt
    dropped := c.dropped
    sinceFirst := c.sinceFirst }

/-- R109: the content of the SNAP at an index; a position that holds no entry gives zeros. -/
def Chassis.snapContent (c : Chassis) (i : Nat) : BitVec 90 :=
  match i with
  | 0 => c.header.content
  | j + 1 =>
    match c.first, j with
    | some f, 0 => f.content
    | some _, k + 1 => ((c.table[k]?).map Entry.content).getD 0
    | none, k => ((c.table[k]?).map Entry.content).getD 0

/-- R88, Table 5-4: the roster frame owed by a roster station. -/
def Chassis.rosterOwed (c : Chassis) (d : Duties) : Option Body :=
  if c.suspects ≠ 0 then some (.roster (c.removingRoster (c.suspects ||| c.inState .departing)))
  else if c.inState .departing ≠ 0 then some (.roster (c.removingRoster (c.inState .departing)))
  else
    match d.sequencer with
    | some q => some (.snap q.next (c.snapContent q.next.toNat))
    | none =>
      match d.list with
      | a :: _ => some (.roster (c.admittingRoster a))
      | [] => none

/-! ### Founding (R108) -/

/-- The copy of a station that founds a chassis. -/
def Chassis.founded (self : Addr) (dropLimit : BitVec 4) (loss : Option Severity) : Chassis :=
  { Chassis.empty with
    generation := 1
    records := recordsOf (fun a => if a = self then some { state := .full, miss := 0 } else none)
    dropLimit := dropLimit
    loss := loss }

end Sys2Proof.Machine
end

