-- ==== Sys2Proof/Machine/Ops.lean ====
section
/-! DEFINITION. The operations that several commands share: notices and local records together, assertions of
sources, the station's transitions, and the events the station makes due by itself. -/

namespace Sys2Proof.Machine

/-! ### The station itself -/

/-- The station's address (R168). -/
def State.self (s : State) : Addr := s.straps.addr

/-- The station runs: the end of power-on has come and RESET is not asserted. -/
def State.operating (s : State) : Bool := s.power.ended && !s.power.resetLow

/-- In step: MEMBER, LEAVING or TRANSFER (Table 0-3). -/
def Station.inStep : Station → Bool
  | .member => true
  | .leaving => true
  | .transfer => true
  | .detached => false
  | .joining => false
  | .adrift => false

/-! ### Notices and local records (chapters 4 and 8) -/

/-- R143: the record of a source takes a state. -/
def State.markRecord (source : BitVec 6) (st : LocalState) (s : State) : State :=
  s.withLog (s.log.setState source st)

/-- R68: a notice is lost: the queue loss count increases and QUEUE_LOSS is set. -/
def State.loseNotice (s : State) : State := (s.withQueue s.queue.lose).setCause .queueLoss

/-- R64, R66: an item has been displaced; the record it was linked to becomes UNSENT. -/
def State.displaced (i : Item) (s : State) : State :=
  match i.link with
  | some source => ((s.withQueue (s.queue.unlink source)).markRecord source .unsent).loseNotice
  | none => s.loseNotice

/-- The queue after an answer, with what a displacement brings. -/
def State.answered (a : Answer) (s : State) : State :=
  match a.displaced with
  | some i => (s.withQueue a.queue).displaced i
  | none => s.withQueue a.queue

/-- A waiting item is linked to the record of the source. -/
def Queue.waitingLink (q : Queue) (source : BitVec 6) : Bool :=
  q.waiting.any (fun i => decide (i.link = some source))

/-- R62 to R68, R143: the queue takes or refuses a FAULT, and the record it reports follows. -/
def State.takeFault (r : Report) (linked : Bool) (s : State) : State :=
  let a := s.queue.offerFault r linked
  let t := s.answered a
  if a.taken then
    if a.queue.waitingLink r.source then t.markRecord r.source .queued else t
  else if linked then (t.markRecord r.source .unsent).loseNotice
  else t.loseNotice

/-- R129, R139 to R142: a raised fault is handed to the Local Fault Log, which offers its notice. -/
def State.raiseFault (source : Fin 32) (severity : Severity) (detail : Word) (s : State) : State :=
  let l := s.log.take (BitVec.ofFin source) severity detail
  ((s.withLog l.log).setCauseIf l.firstWritten .localFirst).takeFault l.report l.linked

/-! ### Assertions (R127, R128) -/

/-- The source. -/
def Monitor.source (m : Monitor) (n : Fin 32) : Source := m.sources[n.val]

/-- The Source Monitor with a source changed. -/
def Monitor.setSource (m : Monitor) (n : Fin 32) (x : Source) : Monitor :=
  { m with sources := m.sources.set n.val x }

/-- The severity a class raises; none for OFF and COUNT. -/
def SourceClass.severity : SourceClass → Option Severity
  | .off => none
  | .count => none
  | .minor => some .minor
  | .major => some .major
  | .critical => some .critical

/-- The source after an assertion, and the severity of the fault it raises, if any (R127, R128). -/
def Source.asserted (x : Source) : Source × Option Severity :=
  match x.cls with
  | .off => (x, none)
  | .count =>
    if x.threshold ≤ satInc x.counter ∧ x.flag = false then
      ({ x with counter := satInc x.counter, flag := true }, some .minor)
    else ({ x with counter := satInc x.counter }, none)
  | .minor | .major | .critical =>
    if x.latched then ({ x with counter := satInc x.counter }, none)
    else ({ x with counter := satInc x.counter, latched := true }, x.cls.severity)

/-- One assertion of a source with a detail word (R121, R126 to R129). -/
def State.assertSource (n : Fin 32) (detail : Word) (s : State) : State :=
  let r := (s.monitor.source n).asserted
  let t := s.withMonitor (s.monitor.setSource n r.1)
  match r.2 with
  | some severity => t.raiseFault n severity detail
  | none => t

/-- The Frame Engine sets BUS_FAULT and asserts source 30 with a code of Table 7-4 (R126). -/
def State.busFault (code : Word) (s : State) : State := (s.setCause .busFault).assertSource 30 code

/-- R77, R146: on becoming MEMBER the log offers a FAULT for each record that is UNSENT then, in order. -/
def State.requeueUnsent (s : State) : State :=
  (s.log.records.filter (fun r => decide (r.state = .unsent))).foldl (fun t r => t.takeFault r.report true) s

/-! ### Leaving the chassis (R18, R75, R85, R118) -/

/-- R73, R75: the queue after its head, if any, has gone back to waiting; the record the head is linked to becomes
QUEUED. -/
def State.headBack (q : Queue) (s : State) : State :=
  match s.queue.headLink with
  | some source => (s.withQueue q).markRecord source .queued
  | none => s.withQueue q

/-- R75: the item in flight, if any, returns to waiting. -/
def State.returnHead (s : State) : State := s.headBack s.queue.returnHead

/-- R73: the item in flight, if any, returns to waiting at the retry limit. -/
def State.retryHead (s : State) : State := s.headBack s.queue.retryHead

/-- R18, R75, R57, R85: what leaving the chassis undoes: the head returns, the copy is discarded, the role and
the admission in progress end, the foreign-reported set is emptied. -/
def State.abandon (s : State) : State :=
  let t := s.returnHead
  let t := t.withChassis Chassis.empty
  let t := t.withEngine { t.engine with foreign := 0 }
  t.withCtl { t.ctl with duties := none, admission := none, transfer := none, joinOwed := false }

/-- The station becomes DETACHED with a cause of removal, and with an automatic join pending or not (R103). -/
def State.toDetached (cause : Removal) (autoJoin : Bool) (s : State) : State :=
  let t := s.abandon
  (t.withCtl { t.ctl with
    station := .detached
    cause := cause
    joinPending := autoJoin
    joinTimer := if autoJoin then some t.items.joinWait else none }).redrive

/-- R118: the station goes ADRIFT and asserts STEP_LOSS with a code of Table 7-4. -/
def State.toAdrift (code : Word) (s : State) : State :=
  let t := s.abandon
  let t := t.withCtl { t.ctl with
    station := .adrift
    adriftLeaving := decide (s.ctl.station = .leaving)
    adriftFrames := 0
    joinTimer := some t.items.joinWait }
  (t.redrive.setCause .stepLoss).assertSource 31 code

/-! ### The roster station (R84, R85) -/

/-- A new roster station's duties (R85). -/
def Duties.fresh : Duties := { list := [], sequencer := none, retries := 0 }

/-- R84, R85: the roster station is computed; the station becomes, stays or stops being it. -/
def State.computeRoster (s : State) : State :=
  if s.copyValid ∧ s.chassis.rosterStation = some s.self then
    s.withCtl { s.ctl with duties := some (s.ctl.duties.getD Duties.fresh) }
  else s.withCtl { s.ctl with duties := none }

/-- What R108 and R113 share: the station becomes MEMBER with the copy it holds. -/
def State.toMember (s : State) : State :=
  let t := s.withCtl { s.ctl with station := .member, joinTimer := none, transfer := none, cause := .none }
  (t.relevel.redrive.setCause .rosterChange).computeRoster.requeueUnsent

/-- R104: the station enters JOINING and owes a JOIN. -/
def State.toJoining (s : State) : State :=
  s.withCtl { s.ctl with station := .joining, joinTimer := none, joinPending := false, joinOwed := true,
                         attempts := 0, heardTraffic := false, heardList := [] }

/-! ### Events due inside the station (log 5) -/

/-- R71, HEAD_AGING: the head ages when its eighth consecutive loss has come. -/
def State.fireAging (s : State) : State :=
  match s.queue.inFlight with
  | some h => if h.agingDue then s.withQueue (s.queue.modifyHead Head.ages) else s
  | none => s

/-- R46, REPEATED_BREAKS: BUS_FAULT is asserted when the consecutive-broken count has reached 4. -/
def State.fireBreaks (s : State) : State :=
  if 4 ≤ s.engine.broken then (s.withEngine { s.engine with broken := 0 }).busFault 0x00000001 else s

/-- The head has reached the retry limit of 16 transmissions (R73). -/
def Queue.exhausted (q : Queue) : Bool :=
  match q.inFlight with
  | some h => decide (16 ≤ h.transmissions)
  | none => false

/-- R73, RETRY_EXHAUSTION: the head returns to waiting and the station goes ADRIFT. -/
def State.fireRetry (s : State) : State := if s.queue.exhausted then s.retryHead.toAdrift 0x00000015 else s

/-- The roster retry count has reached 16 (R92). -/
def Ctl.exhausted (c : Ctl) : Bool :=
  match c.duties with
  | some d => decide (16 ≤ d.retries)
  | none => false

/-- R92, ROSTER_RETRY_EXHAUSTION: the station goes ADRIFT. -/
def State.fireRosterRetry (s : State) : State := if s.ctl.exhausted then s.toAdrift 0x00000015 else s

/-- R119: the exit from ADRIFT by the adrift wait or the adrift frame count. -/
def State.exitAdrift (s : State) : State :=
  s.toDetached (if s.ctl.adriftLeaving then .departed else .dropped) (s.items.autoRejoin && !s.ctl.adriftLeaving)

/-- R119, ADRIFT_FRAME_COUNT_EXPIRY: the station becomes DETACHED at the sixteenth complete frame. -/
def State.fireAdriftCount (s : State) : State :=
  if s.ctl.station = .adrift ∧ 16 ≤ s.ctl.adriftFrames then s.exitAdrift else s

/-- The events due inside the station, taken before anything else is (log 5). -/
def State.settleDue (s : State) : State :=
  s.fireAging.fireBreaks.fireRetry.fireRosterRetry.fireAdriftCount

/-! ### What the port shifts out (R150, R151, R178) -/

/-- n free bytes, from the k-th on (log 8). -/
def freeBytes (k n : Nat) : List Byte := (List.range n).map (fun i => Config.freeByte (k + i))

/-- The bytes clocked out now have no defined value: before the end of power-on (R178), also while RESET is low then
(DESIGN CHOICE, log 38), and, in a transaction that began before the last reset ended, after it (log 34). -/
def State.outUndefined (s : State) : Bool := !s.power.ended || (!s.power.resetLow && s.port.straddle.isSome)

/-- R151, R178: n bytes clocked out as the station stands now: free bytes, FFh while RESET is asserted, the stored
response. -/
def State.clocks (n : Nat) (s : State) : List Byte :=
  if s.outUndefined then freeBytes s.freeCount n
  else if s.power.resetLow then List.replicate n 0xFF#8
  else shiftOut s.port.response n

/-- The bytes that a transaction which takes no command had clocked out before its last cut. -/
def Port.before (p : Port) : List Byte := p.straddle.getD []

/-- The first n bytes of the transaction in progress: those from before a cut, then those clocked out now. -/
def State.bytesOut (n : Nat) (s : State) : List Byte :=
  s.port.before.take n ++ s.clocks (n - s.port.before.length)

/-- How many of them are new free bytes. -/
def State.freeUsed (n : Nat) (s : State) : Nat := if s.outUndefined then n - s.port.before.length else 0

/-- R151, R178: a transaction of n bytes shifts them out, and is over. Where the spec gives its bytes no value, or two rules
give them different ones, they are free (log 8, log 34, log 38). -/
def State.shifts (n : Nat) (s : State) : State :=
  (s.withPort { s.port with sdo := s.bytesOut n, straddle := none }).withFree (s.freeCount + s.freeUsed n)

/-- The byte in progress when a given number of bits has been clocked: none at a byte's end, else a free byte, since its
bits come from both sides of the cut (log 34). -/
def partByte (k bits : Nat) : List Byte := if bits % 8 = 0 then [] else freeBytes k 1

/-- R150: chip select at an edge of RESET or at the end of power-on. A transaction in progress then, with a number of bits
clocked, takes no command, and its bytes so far are as they were clocked out. -/
def State.cutPort (clocked : Option Nat) (s : State) : State :=
  match clocked with
  | none => s.withPort { s.port with straddle := none }
  | some bits =>
    let k := s.freeCount + s.freeUsed (bits / 8)
    (s.withPort { s.port with straddle := some (s.bytesOut (bits / 8) ++ partByte k bits) }).withFree
      (k + (partByte k bits).length)

end Sys2Proof.Machine
end

