-- ==== Sys2Proof/Machine/Bus.lean ====
section
/-! DEFINITION. The Frame Engine's rows up to the ack window: BUS_IDLE, FRAME_START, ARBITRATION_LOSS,
HEAD_AGING, TRANSMISSION_FAULT, BODY_RECEIVED; and REPEATED_BREAKS, STUCK_LINE, RETRY_EXHAUSTION,
ROSTER_RETRY_EXHAUSTION (chapters 3, 4 and 5). -/

namespace Sys2Proof.Machine

/-! ### What the station offers (R42, R70, R88) -/

/-- The roster frame the station owes (R88); none when it is not roster station. -/
def State.rosterOwed (s : State) : Option Body :=
  match s.ctl.duties with
  | some d => s.chassis.rosterOwed d
  | none => none

/-- The queue's head with the urgency it is offered at (R70). -/
def Queue.head (q : Queue) : Option (Notice × Nat) :=
  match q.inFlight with
  | some h => some (h.item.notice, h.urgency)
  | none =>
    match q.waiting with
    | i :: _ => some (i.notice, i.notice.urgency)
    | [] => none

/-- The frame the transmit arbiter offers, with its path (R42, Table 3-4). -/
def State.offer (s : State) : Option (Path × Frame) :=
  match s.ctl.station with
  | .member | .leaving =>
    match s.rosterOwed with
    | some b => some (.roster, { urgency := 0, sender := s.self, body := b })
    | none =>
      s.queue.head.map (fun x => (.queue, { urgency := BitVec.ofNat 3 x.2, sender := s.self, body := .notice x.1 }))
  | .joining => if s.ctl.joinOwed then some (.join, { urgency := 5, sender := s.self, body := .join }) else none
  | .transfer | .detached | .adrift => none

/-- R92: the roster retry count returns to 0 when R88 finds nothing owed. -/
def State.askRoster (s : State) : State :=
  match s.ctl.duties with
  | some d =>
    match s.chassis.rosterOwed d with
    | some _ => s
    | none => s.withCtl { s.ctl with duties := some { d with retries := 0 } }
  | none => s

/-! ### BUS_IDLE and FRAME_START -/

/-- The bus counts recessive bit times toward idle: BROKEN-WAIT or the interframe gap, with nothing driven (R40). -/
def Engine.waitsIdle (e : Engine) : Bool :=
  !e.breaking && (decide (e.bus = .brokenWait) || decide (e.phase = .gap))

/-- R40: the eleventh consecutive recessive bit time. -/
def Engine.toIdle (e : Engine) : Engine :=
  { e with bus := .idle, recessive := 11, stuckRun := 0, phase := .none, sent := none }

/-- BUS_IDLE (R40): the Frame Engine enters IDLE. The arbiter then asks what is owed (R92). -/
def execBusIdle (s : State) : Host.Outcome State Fault Refusal :=
  let t := s.settleDue
  if t.operating ∧ t.engine.waitsIdle then .next (t.withEngine t.engine.toIdle).askRoster
  else .next t

/-- R43, R47, R58: a frame begins; the receive buffer is emptied and the stuck-line run returns to 0. -/
def Engine.startFrame (e : Engine) (sent : Option Sent) : Engine :=
  { e with
    bus := if sent.isSome then .arbitrating else .receiving
    recessive := 0
    stuckRun := 0
    phase := .body
    sent := sent
    lostAtSender := false
    breaking := false
    rx := none }

/-- R119: in ADRIFT a start bit restarts the adrift wait. -/
def State.hearStart (s : State) : State :=
  if s.ctl.station = .adrift then s.withCtl { s.ctl with joinTimer := some s.items.joinWait } else s

/-- R69: the head's first arbitration; a linked record becomes IN_FLIGHT. -/
def State.startHead (s : State) : State :=
  match s.queue.inFlight with
  | some _ => s
  | none =>
    match s.queue.startHead.headLink with
    | some source => (s.withQueue s.queue.startHead).markRecord source .inFlight
    | none => s.withQueue s.queue.startHead

/-- R42, R43, R69: the station drives the start bit of the frame it offers. -/
def State.beginOwn (path : Path) (f : Frame) (s : State) : State :=
  let t := s.withEngine (s.engine.startFrame (some { path, bits := f.bits }))
  match path with
  | .queue => t.startHead
  | .roster => t
  | .join => t

/-- FRAME_START (R40, R42, R43, R69, R119): `byOther` when the start bit was read before this station had
driven its own; else this station drives the start bit of the frame it offers. With nothing to offer and no
start bit of another, no frame starts (log 4). -/
def execFrameStart (byOther : Bool) (s : State) : Host.Outcome State Fault Refusal :=
  let t := s.settleDue
  if t.operating ∧ t.engine.bus = .idle then
    if byOther then .next (t.askRoster.withEngine (t.engine.startFrame none)).hearStart
    else
      match t.offer with
      | some (path, f) => .next (t.askRoster.beginOwn path f)
      | none => .next t.askRoster
  else .next t

/-! ### Arbitration and transmission faults (R44, R45) -/

/-- The station is sending: it drives the frame on the bus and has not lost. -/
def Engine.sending (e : Engine) : Bool :=
  !e.breaking && (decide (e.bus = .arbitrating) || decide (e.bus = .transmitting))
    && (decide (e.phase = .body) || decide (e.phase = .tail))

/-- R44, R71: the loss is reported to the Notice Queue when the head was offered. A lost roster frame or JOIN stays
owed (R92, R104). -/
def State.reportLoss (s : State) : State :=
  match s.engine.sent with
  | some x =>
    match x.path with
    | .queue => s.withQueue (s.queue.modifyHead Head.loseArbitration)
    | .roster => s
    | .join => s
  | none => s

/-- ARBITRATION_LOSS (R44): the station stops driving, receives the frame, and reports the loss. `atUrgency`:
the losing bit is in the urgency field (R56 tells the two fields apart). -/
def execArbitrationLoss (atUrgency : Bool) (s : State) : Host.Outcome State Fault Refusal :=
  let t := s.settleDue
  if t.operating ∧ t.engine.sending ∧ t.engine.bus = .arbitrating ∧ t.engine.phase = .body then
    let u := t.reportLoss
    .next (u.withEngine { u.engine with bus := .receiving, sent := none, lostAtSender := !atUrgency })
  else .next t

/-- HEAD_AGING (R71). Taken when it is due (log 5). -/
def execHeadAging (s : State) : Host.Outcome State Fault Refusal := .next s.fireAging

/-- TRANSMISSION_FAULT (R45): the sender stops its frame and drives the break through the end mark, where
FRAME_END finds the frame broken. The spec names no bus state for a sender that drives the break: it stays as it was
(DESIGN CHOICE, log 43). -/
def execTransmissionFault (s : State) : Host.Outcome State Fault Refusal :=
  let t := s.settleDue
  if t.operating ∧ t.engine.sending then .next (t.withEngine { t.engine with breaking := true })
  else .next t

/-! ### BODY_RECEIVED (R47, R48, R56, R57, R86, R105) -/

/-- The frame of the body in the receive buffer; none when it is empty or bad (R47). -/
def State.goodBody (s : State) : Option Frame :=
  match s.engine.rx with
  | some bits => readFrame bits
  | none => none

/-- R56: this station did not send the frame on the bus: it did not drive its start bit, or it lost arbitration at
an urgency bit. -/
def State.notSent (s : State) : Bool := s.engine.sent.isNone && !s.engine.lostAtSender

/-- The frame is a JOIN. -/
def Frame.isJoin (f : Frame) : Bool := decide (f.body = .join)

/-- The ROSTER admits the station. -/
def Body.admits (b : Body) (a : Addr) : Bool :=
  match b with
  | .roster r => decide (r.admitted = some a)
  | .notice _ => false
  | .join => false
  | .snap _ _ => false

/-- R57: the frame is foreign to the station. -/
def State.foreign (f : Frame) (s : State) : Bool :=
  s.ctl.station.inStep && !f.isJoin && !setHas s.chassis.map f.sender

/-- R48: the station drives its own ack slot, as it stands now: the state and the map are those it holds at the bit
time of the slot (log 22). -/
def State.drivesAck (s : State) : Bool :=
  s.operating && decide (s.engine.phase = .tail) && !s.engine.breaking &&
    (match s.goodBody with
     | some f =>
       (s.ctl.station.inStep && !f.isJoin && setHas s.chassis.map f.sender)
         || (decide (s.ctl.station = .joining) && f.body.admits s.self)
     | none => false)

/-- R57: the first foreign frame from a sender since the set was emptied. -/
def State.hearForeign (f : Frame) (s : State) : State :=
  if s.foreign f ∧ setHas s.engine.foreign f.sender = false then
    (s.withEngine { s.engine with foreign := s.engine.foreign ||| setSingle f.sender }).busFault
      (0x00000100 + f.sender.setWidth 32)
  else s

/-- R56: a duplicate address found by a station that is not in step. -/
def State.hearDuplicate (f : Frame) (s : State) : State :=
  if s.ctl.station.inStep = false ∧ f.sender = s.self ∧ s.notSent then s.busFault 0x00000003 else s

/-- R105, Table 6-3: what a JOINING station records of a frame read good. -/
def State.hearJoining (f : Frame) (s : State) : State :=
  if s.ctl.station = .joining then
    if f.sender = s.self then
      if s.notSent then s.withCtl { s.ctl with heardTraffic := true } else s
    else if f.isJoin ∧ s.self < f.sender then
      if f.sender ∈ s.ctl.heardList then s
      else s.withCtl { s.ctl with heardList := s.ctl.heardList ++ [f.sender] }
    else s.withCtl { s.ctl with heardTraffic := true }
  else s

/-- R86: the roster station lists the sender of a JOIN, unless it is listed or is the station itself. -/
def State.hearJoin (f : Frame) (s : State) : State :=
  match s.ctl.duties with
  | some d =>
    if f.isJoin ∧ f.sender ≠ s.self ∧ f.sender ∉ d.list then
      s.withCtl { s.ctl with duties := some { d with list := d.list ++ [f.sender] } }
    else s
  | none => s

/-- R47: a good body is passed on. -/
def State.passOn (f : Frame) (s : State) : State :=
  (((s.hearDuplicate f).hearForeign f).hearJoining f).hearJoin f

/-- R45: the sender reads back bits that differ from those it drove. -/
def Engine.readsOther (e : Engine) (bits : BodyBits) : Bool :=
  match e.sent with
  | some x => decide (x.bits ≠ bits)
  | none => false

/-- R45: the station breaks the frame on the bus: it does so already, or it reads back other bits than it drove. -/
def Engine.breaks (e : Engine) (bits : BodyBits) : Bool := e.breaking || e.readsOther bits

/-- R47: the body is in the receive buffer and the ack window follows, also at a sender that breaks its frame. A station
still arbitrating has won at the kind field (R44). The spec names no bus state for a sender that drives the break: it stays
ARBITRATING or TRANSMITTING, as it was, until FRAME_END (DESIGN CHOICE, log 43). -/
def Engine.takeBody (e : Engine) (bits : BodyBits) : Engine :=
  { e with
    bus := if e.bus = .arbitrating ∧ e.breaks bits = false then .transmitting else e.bus
    phase := .tail
    breaking := e.breaks bits
    rx := some bits }

/-- BODY_RECEIVED (R47): the body is judged at the end of the frame check, at every station; a good body is passed on and
decides the ack slot (`drivesAck`). A sender that reads back other bits than its own breaks the frame (R45). -/
def execBodyReceived (bits : BodyBits) (s : State) : Host.Outcome State Fault Refusal :=
  let t := s.settleDue
  if t.operating ∧ t.engine.phase = .body then
    let u := t.withEngine (t.engine.takeBody bits)
    match u.goodBody with
    | some f => .next (u.passOn f)
    | none => .next u
  else .next t

/-! ### Bus faults and retry limits -/

/-- REPEATED_BREAKS (R46). Taken when it is due (log 5). -/
def execRepeatedBreaks (s : State) : Host.Outcome State Fault Refusal := .next s.fireBreaks

/-- Outside a frame: BROKEN-WAIT, IDLE, or the interframe gap after the end mark (R58). -/
def Engine.outsideFrame (e : Engine) : Bool :=
  decide (e.bus = .brokenWait) || decide (e.bus = .idle) || decide (e.phase = .gap)

/-- STUCK_LINE (R58): the run has reached 32 dominant bit times outside a frame; BUS_FAULT with stuck line. A
dominant bit also sets the recessive bit count back to 0 (R40). -/
def execStuckLine (s : State) : Host.Outcome State Fault Refusal :=
  let t := s.settleDue
  if t.operating ∧ t.engine.outsideFrame then
    .next ((t.withEngine { t.engine with stuckRun := 32, recessive := 0 }).busFault 0x00000002)
  else .next t

/-- RETRY_EXHAUSTION (R73). Taken when it is due (log 5). -/
def execRetryExhaustion (s : State) : Host.Outcome State Fault Refusal := .next s.fireRetry

/-- ROSTER_RETRY_EXHAUSTION (R92). Taken when it is due (log 5). -/
def execRosterRetryExhaustion (s : State) : Host.Outcome State Fault Refusal := .next s.fireRosterRetry

end Sys2Proof.Machine
end

