-- ==== Sys2Proof/Machine/Power.lean ====
section
/-! DEFINITION. POWER_ON, END_OF_POWER_ON, RESET_ASSERTED and RESET_RELEASED; and watching a line anew, which the
source writes share (R124). -/

namespace Sys2Proof.Machine

/-! ### Lines -/

/-- The line. -/
def Monitor.line (m : Monitor) (n : Fin 24) : Line := m.lines[n.val]

/-- The Source Monitor with a line changed. -/
def Monitor.setLine (m : Monitor) (n : Fin 24) (x : Line) : Monitor := { m with lines := m.lines.set n.val x }

/-- R122: the level that makes a line of a polarity active. -/
def Polarity.activeLevel : Polarity → Bool
  | .activeLow => false
  | .activeHigh => true

/-- R122: the line is active: its level matches its polarity. -/
def Monitor.active (m : Monitor) (n : Fin 24) : Bool :=
  m.fin.getLsbD n.val == (m.line n).polarity.activeLevel

/-- R122: the detail word of a line's assertion: the level of all 24 lines, the eight positions above 0. -/
def Monitor.detail (m : Monitor) : Word := m.fin.setWidth 32

/-- A line is a source of the same number (Table 7-2). -/
def sourceOfLine (n : Fin 24) : Fin 32 := ⟨n.val, by omega⟩

/-- Table 7-3: the assertion is taken and the tracker goes to HELD. -/
def State.takeLine (n : Fin 24) (s : State) : State :=
  (s.withMonitor (s.monitor.setLine n { s.monitor.line n with tracker := .held, timer := none })).assertSource
    (sourceOfLine n) s.monitor.detail

/-- Table 7-3, INACTIVE, line becomes active: the assertion at once with qualify time 0, else the timer. -/
def State.startLine (n : Fin 24) (s : State) : State :=
  if s.items.qualifyTime = 0 then s.takeLine n
  else
    s.withMonitor (s.monitor.setLine n
      { s.monitor.line n with tracker := .qualifying, timer := some s.items.qualifyTime })

/-- R124: the Source Monitor begins to watch a line. -/
def State.watchLine (n : Fin 24) (s : State) : State :=
  if s.monitor.active n then
    match (s.monitor.line n).mode with
    | .edge => s.withMonitor (s.monitor.setLine n { s.monitor.line n with tracker := .held, timer := none })
    | .level => s.startLine n
  else s.withMonitor (s.monitor.setLine n { s.monitor.line n with tracker := .inactive, timer := none })

/-- R124: watching begins on every line, at given levels. -/
def State.watchAll (fin : BitVec 24) (s : State) : State :=
  (List.finRange 24).foldl (fun t n => t.watchLine n) (s.withMonitor { s.monitor with fin := fin })

/-- R103, R168: AUTOJOIN as sampled makes an automatic join pending, and starts the join timer. -/
def State.afterStraps (s : State) : State :=
  if s.straps.autojoin then
    s.withCtl { s.ctl with joinPending := true, joinTimer := some s.items.joinWait }
  else s

/-! ### Meanings -/

/-- POWER_ON (R20, R38, R79, R99, R136, R149, R167, R169, R170, R179): every block takes its power-on value; the
levels of the strap and line pins are not sampled yet. The free value counter goes on. -/
def execPowerOn (s : State) : Host.Outcome State Fault Refusal :=
  .next ((State.reset.withFree s.freeCount).withPending s.pending)

/-- END_OF_POWER_ON (R168, R124, R103, R150): the straps are sampled, watching begins, and AUTOJOIN high makes an
automatic join pending. With RESET still low, watching and the automatic join wait for its release (log 18). -/
def execEndOfPowerOn (addr : Addr) (rate : BitVec 2) (autojoin : Bool) (pins : Pins) (s : State) :
    Host.Outcome State Fault Refusal :=
  if s.power.ended then .next s
  else
    let t := ((s.cutPort pins.clocked).withPower { s.power with ended := true }).withStraps { addr, rate, autojoin }
    if s.power.resetLow then .next (t.withMonitor { t.monitor with fin := pins.fin })
    else .next (t.watchAll pins.fin).afterStraps

/-- R135, R170: the Source Monitor while RESET is asserted: latches IDLE, timers stopped, source table at its
defaults; counters, threshold flags kept. The spec gives the line trackers no value until the release sets them (R124): the
model holds every one, a HELD one too, at INACTIVE from the assertion on (DESIGN CHOICE, log 37). -/
def Monitor.boardReset (m : Monitor) : Monitor :=
  { m with
    sources := Vector.ofFn (fun n : Fin 32 =>
      { m.source n with cls := defaultClass n.val, threshold := 16, latched := false })
    lines := Vector.ofFn (fun _ : Fin 24 => Line.default) }

/-- R59: the station is sending the echo or the echo check of its own frame, which stand at positions 140 to
163 (R176). -/
def Engine.echoing (e : Engine) (position : Nat) : Bool :=
  e.sent.isSome && decide (e.phase = .tail) && decide (140 ≤ position) && decide (position ≤ 163)

/-- The station at the assertion of RESET (Tables 1-5, 2-8, 3-8, 4-6, 5-7, 6-6, 7-5, 8-4, 9-6). A transaction in progress
goes on clocking (R150). A break still driven from an earlier RESET stops, since the station sends no frame of its own then
(DESIGN CHOICE, log 40). -/
def State.boardReset (position : Nat) (s : State) : State :=
  { s with
    power := { s.power with resetLow := true }
    items := Items.default
    monitor := s.monitor.boardReset
    log := s.log.boardReset
    queue := s.queue.boardReset
    engine := { Engine.reset with breaking := s.engine.echoing position }
    chassis := Chassis.empty
    ctl := Ctl.reset
    outputs := ({ s.outputs with policy := .hold } : Outputs).drive s.outputs.lastKnown
    alerts := Alerts.reset
    port := { Port.reset with straddle := s.port.straddle } }

/-- RESET_ASSERTED (R59, R18, R38, R78, R99, R120, R135, R148, R150, R167, R169). A RESET that is already
asserted is not asserted again (log 4). -/
def execResetAsserted (moment : Moment) (s : State) : Host.Outcome State Fault Refusal :=
  if s.power.resetLow then .next s
  else .next ((s.settleDue.cutPort moment.clocked).boardReset moment.position)

/-- RESET_RELEASED (R168, R124, R103, R135, R150): RATE and AUTOJOIN are sampled again, watching begins, and an
automatic join may become pending. Before the end of power-on only the release is taken (log 18). -/
def execResetReleased (rate : BitVec 2) (autojoin : Bool) (pins : Pins) (s : State) :
    Host.Outcome State Fault Refusal :=
  if s.power.resetLow then
    let t := (s.cutPort pins.clocked).withPower { s.power with resetLow := false }
    if s.power.ended then
      .next ((t.withStraps { s.straps with rate, autojoin }).watchAll pins.fin).afterStraps
    else .next t
  else .next s

end Sys2Proof.Machine
end

