-- ==== Sys2Proof/Machine/Port.lean ====
section
/-! DEFINITION. The Management Port: transactions, responses, and the reads of the port (chapter 9, chapter 11 section
11.4). -/

namespace Sys2Proof.Machine

/-! ### Transactions (R150, R151, R178) -/

/-- What a command answers: status, data, and the state its effect leaves. -/
structure Reply where
  status : Status
  data : List Byte
  state : State
  deriving DecidableEq, Repr

/-- R152: a command answered with another status than DONE has no effect and no data. -/
def refuse (status : Status) (s : State) : Reply := { status := status, data := [], state := s }

/-- A command answered DONE without data. -/
def done (s : State) : Reply := { status := .done, data := [], state := s }

/-- A read answered DONE. -/
def answer (data : List Byte) (s : State) : Reply := { status := .done, data := data, state := s }

/-- R151: the response count advances by one and wraps from 255 to 1. -/
def nextCount (c : Byte) : Byte := if c = 0xFF then 1 else c + 1

/-- R151: a reply replaces the response buffer's contents. -/
def Reply.stored (r : Reply) (code : Byte) (count : Byte) : State :=
  r.state.withPort { r.state.port with
    response := some { code := code, count := count, status := r.status, data := r.data }
    count := count }

/-- R150, R167: the port takes commands: the station runs, and chip select did not fall before the last reset ended. -/
def State.takesCommands (s : State) : Bool := s.operating && s.port.straddle.isNone

/-- R150: a transaction of n bytes, whose command is taken at the rise of chip select if the port takes commands. -/
def State.transact (code : Byte) (n : Nat) (act : State → Reply) (s : State) : State :=
  let t := s.settleDue.shifts n
  if s.settleDue.takesCommands then (act t).stored code (nextCount t.port.count) else t

/-! ### Arguments (R152, check 1 and check 2) -/

/-- One argument byte and the effect of a value in range; BAD_ARG for a missing byte or a value out of range. -/
def withByte {α : Type} (rest : List Byte) (range : Byte → Option α) (act : α → State → Reply) (s : State) : Reply :=
  match rest with
  | [] => refuse .badArg s
  | b :: _ =>
    match range b with
    | some v => act v s
    | none => refuse .badArg s

/-- R171: a configuration write in range is taken while DETACHED and LOCKED in every other state. -/
def locked (write : State → State) (s : State) : Reply :=
  if s.ctl.station = .detached then done (write s) else refuse .locked s

/-- SET STATION's value byte (R162). -/
def setStation {α : Type} (rest : List Byte) (range : Byte → Option α) (write : α → State → State) (s : State) :
    Reply :=
  withByte rest range (fun v => locked (write v)) s

/-- SET SOURCE's source and value bytes (R162). -/
def setSource {α : Type} (source : Byte) (rest : List Byte) (range : Byte → Option α)
    (write : Fin 32 → α → State → State) (s : State) : Reply :=
  match sourceArg source with
  | some n => withByte rest range (fun v => locked (write n v)) s
  | none => refuse .badArg s

/-- SET SOURCE for an item that sources 0 to 23 alone have (R162, R170). -/
def setLineItem {α : Type} (source : Byte) (rest : List Byte) (range : Byte → Option α)
    (write : Fin 24 → α → State → State) (s : State) : Reply :=
  match (sourceArg source).bind lineOf with
  | some n => withByte rest range (fun v => locked (write n v)) s
  | none => refuse .badArg s

/-- A byte within limits. -/
def within (low high b : Byte) : Option Byte := if low ≤ b ∧ b ≤ high then some b else none

/-- R152, check 4: a read of the chassis record needs a valid copy. -/
def readCopy (data : State → List Byte) (s : State) : Reply :=
  if s.copyValid then answer (data s) s else refuse .invalid s

/-- R152, check 6: a notice is offered to the queue; DONE when it is in the queue, BUSY when it is refused. -/
def offerNotice (a : Answer) (s : State) : Reply := if a.taken then done (s.answered a) else refuse .busy s

/-! ### Response data (Table 11-7, Table 11-8) -/

/-- The copy the port reports: this station's when it is valid, else a discarded one (R154). -/
def State.reportedCopy (s : State) : Chassis := if s.copyValid then s.chassis else Chassis.empty

/-- STATUS byte 36: the kind in flight plus 1, 0 for none. -/
def Queue.kindInFlight (q : Queue) : Byte :=
  match q.inFlight with
  | some h => h.item.notice.kind + 1
  | none => 0

/-- STATUS bytes 40 to 50: the clear outcome record. -/
def clearBytes (c : Option ClearRecord) : List Byte :=
  match c with
  | some r => [r.outcome.code, byteOf r.scope.code, byteOf r.origin] ++ bytes32 r.reference ++ bytes32 r.settle
  | none => List.replicate 11 0

/-- STATUS bytes 3 to 11. The bits of byte 5 that Table 11-8 does not name are 0 (DESIGN CHOICE, log 41). -/
def State.stationBytes (s : State) : List Byte :=
  [byteOf s.straps.addr, byteOf s.straps.rate,
   byteOf (BitVec.ofBool s.ctl.duties.isSome ++ BitVec.ofBool s.copyValid ++ BitVec.ofBool s.straps.autojoin),
   s.ctl.station.code, s.ctl.attempts, s.ctl.cause.code, s.outputs.driven.code, s.outputs.lastKnown.code,
   s.reportedCopy.level.code]

/-- STATUS bytes 12 to 29. -/
def Chassis.statusBytes (c : Chassis) (self : Addr) : List Byte :=
  [flagByte c.halt] ++ bytes32 c.settle ++ bytes16 c.generation ++ bytes16 c.map
    ++ [byteOf (memberCode (c.record self)), BitVec.ofNat 8 c.table.length] ++ bytes16 c.dropped
    ++ [flagByte c.first.isSome] ++ bytes16 c.sinceFirst ++ [byteOf c.dropLimit, byteOf (lossCode c.loss)]

/-- STATUS bytes 30 to 39. -/
def State.localBytes (s : State) : List Byte :=
  [byteOf s.items.foundingDropLimit, byteOf (lossCode s.items.foundingLoss), flagByte s.log.first.isSome,
   BitVec.ofNat 8 s.log.next.length, s.log.overflow, BitVec.ofNat 8 s.queue.count, s.queue.kindInFlight,
   s.queue.loss, s.alerts.pending, s.alerts.mask]

/-- R154: the STATUS data, bytes 3 to 50. -/
def State.statusData (s : State) : List Byte :=
  s.stationBytes ++ s.reportedCopy.statusBytes s.self ++ s.localBytes ++ clearBytes s.port.clear

/-- READ LOCAL bytes 3 to 17: a record, or none. -/
def recordBytes (r : Option Record) : List Byte :=
  match r with
  | some x =>
    [1] ++ bytes16 x.number ++ [byteOf x.source, byteOf x.severity.code, x.occurrences] ++ bytes32 x.detail
      ++ [x.state.code] ++ bytes32 x.state.settle
  | none => List.replicate 15 0

/-- R147: the READ LOCAL data. -/
def Log.data (l : Log) (r : Option Record) : List Byte :=
  recordBytes r ++ [BitVec.ofNat 8 l.next.length, l.overflow]

/-- READ COUNTER byte 7: bit 7 active, bits 1 and 0 the tracker; 00h for a source that is no line. The bits that Table 11-7
does not name are 0 (DESIGN CHOICE, log 41). -/
def Monitor.lineByte (m : Monitor) (n : Fin 32) : Byte :=
  match lineOf n with
  | some l => (if m.active l then 0x80 else 0x00) ||| (m.line l).tracker.code
  | none => 0

/-- R132: the READ COUNTER data. -/
def Monitor.counterData (m : Monitor) (n : Fin 32) : List Byte :=
  [(m.source n).cls.code, flagByte (m.source n).latched, (m.source n).counter, flagByte (m.source n).flag,
   m.lineByte n]

/-- READ ENTRY bytes 3 to 16: an entry, or none. -/
def entryBytes (e : Option Entry) : List Byte :=
  match e with
  | some x =>
    [1, byteOf x.origin, byteOf x.source, byteOf x.severity.code] ++ bytes32 x.firstSettle ++ [x.occurrences]
      ++ bytes32 x.detail ++ [flagByte x.absent]
  | none => List.replicate 14 0

/-- R155: the READ ENTRY data for a position. -/
def Chassis.entryData (c : Chassis) (position : Nat) : List Byte :=
  entryBytes c.table[position]? ++ [BitVec.ofNat 8 c.table.length] ++ bytes32 c.settle

/-- READ CHASSIS FIRST bytes 3 to 14: the first record, or none. -/
def firstBytes (f : Option First) : List Byte :=
  match f with
  | some x =>
    [1, byteOf x.origin, byteOf x.source, byteOf x.severity.code] ++ bytes32 x.settle ++ bytes32 x.detail
  | none => List.replicate 12 0

/-- R155: the READ CHASSIS FIRST data. -/
def Chassis.firstData (c : Chassis) : List Byte := firstBytes c.first ++ bytes16 c.sinceFirst ++ bytes32 c.settle

/-- READ ROSTER, the byte of one address: bits 7 and 6 the record state, bits 3 to 0 the miss count. Bits 5 and 4, which
Table 11-7 does not name, are 0 (DESIGN CHOICE, log 41). -/
def memberByte (r : Option Member) : Byte :=
  match r with
  | some m => memberCode (some m) ++ 0#2 ++ m.miss
  | none => 0

/-- READ ROSTER, an address or FFh for none. -/
def addrByte (a : Option Addr) : Byte :=
  match a with
  | some x => byteOf x
  | none => 0xFF

/-- READ ROSTER bytes 26 and 27: the admission in progress. -/
def admissionBytes (a : Option Admission) : List Byte :=
  match a with
  | some x => [byteOf x.addr, byteOf x.total]
  | none => [0xFF, 0]

/-- READ ROSTER bytes 30 to 32: the transfer sequencer. -/
def sequencerBytes (q : Option Sequencer) : List Byte :=
  match q with
  | some x => [byteOf x.addr, byteOf x.next, byteOf x.total]
  | none => [0xFF, 0, 0]

/-- READ ROSTER bytes 28 to 32: what the roster station alone has; elsewhere count 0, no head, idle. -/
def dutiesBytes (d : Option Duties) : List Byte :=
  match d with
  | some x => [BitVec.ofNat 8 x.list.length, addrByte x.list.head?] ++ sequencerBytes x.sequencer
  | none => [0, 0xFF] ++ sequencerBytes none

/-- R156: the READ ROSTER data. -/
def State.rosterData (s : State) : List Byte :=
  bytes16 s.chassis.generation ++ bytes16 s.chassis.map
    ++ allAddrs.map (fun a => memberByte (s.chassis.record a))
    ++ [byteOf s.chassis.dropLimit, byteOf (lossCode s.chassis.loss), addrByte s.chassis.rosterStation]
    ++ admissionBytes s.ctl.admission ++ dutiesBytes s.ctl.duties ++ bytes32 s.chassis.settle

end Sys2Proof.Machine
end

