-- ==== Sys2Proof/Machine/Commands.lean ====
section
/-! DEFINITION. The port rows: one meaning for each command of Table 11-5 and each item of Table 11-6 (chapters 7 to 10).
The number of bytes of a transaction is that of the bytes the row fixes and of `rest`. -/

namespace Sys2Proof.Machine

/-! ### Reads -/

/-- STATUS (R154). -/
def execStatus (rest : List Byte) (s : State) : Host.Outcome State Fault Refusal :=
  .next (s.transact 0x01 (1 + rest.length) (fun t => answer t.statusData t))

/-- READ ALERTS (R164, R166): the pending causes are returned and cleared, and ALERT is negated. -/
def execReadAlerts (rest : List Byte) (s : State) : Host.Outcome State Fault Refusal :=
  .next (s.transact 0x02 (1 + rest.length) (fun t =>
    answer [t.alerts.pending, t.alerts.mask] (t.withAlerts (Alerts.of 0 t.alerts.mask))))

/-- The record a READ LOCAL selector names: 00h to 07h a next record, 10h the first record (Table 11-5). -/
def Log.selected (l : Log) (selector : Byte) : Option (Option Record) :=
  if selector = 0x10 then some l.first else if selector ≤ 0x07 then some l.next[selector.toNat]? else none

/-- READ LOCAL (R147, R161). -/
def execReadLocal (rest : List Byte) (s : State) : Host.Outcome State Fault Refusal :=
  .next (s.transact 0x0B (1 + rest.length) (fun t =>
    withByte rest t.log.selected (fun r => answer (t.log.data r)) t))

/-- READ COUNTER (R132, R157). -/
def execReadCounter (rest : List Byte) (s : State) : Host.Outcome State Fault Refusal :=
  .next (s.transact 0x0D (1 + rest.length) (withByte rest sourceArg (fun n t =>
    answer (t.monitor.counterData n) t)))

/-- READ ENTRY (R155). -/
def execReadEntry (rest : List Byte) (s : State) : Host.Outcome State Fault Refusal :=
  .next (s.transact 0x0F (1 + rest.length) (withByte rest (within 0 31) (fun p =>
    readCopy (fun t => t.chassis.entryData p.toNat))))

/-- READ CHASSIS FIRST (R155). -/
def execReadChassisFirst (rest : List Byte) (s : State) : Host.Outcome State Fault Refusal :=
  .next (s.transact 0x10 (1 + rest.length) (readCopy (fun t => t.chassis.firstData)))

/-- READ ROSTER (R156). -/
def execReadRoster (rest : List Byte) (s : State) : Host.Outcome State Fault Refusal :=
  .next (s.transact 0x11 (1 + rest.length) (readCopy State.rosterData))

/-! ### SET STATION (R162, R169, R171, R172) -/

/-- SET STATION, qualify time: any byte. -/
def execSetStationQualifyTime (rest : List Byte) (s : State) : Host.Outcome State Fault Refusal :=
  .next (s.transact 0x03 (2 + rest.length) (setStation rest some (fun v t =>
    t.withItems { t.items with qualifyTime := v })))

/-- SET STATION, join wait: 1 to 255. A running timer keeps its duration (R101). -/
def execSetStationJoinWait (rest : List Byte) (s : State) : Host.Outcome State Fault Refusal :=
  .next (s.transact 0x03 (2 + rest.length) (setStation rest (within 1 255) (fun v t =>
    t.withItems { t.items with joinWait := v })))

/-- SET STATION, auto-rejoin: 0 off, 1 on. -/
def execSetStationAutoRejoin (rest : List Byte) (s : State) : Host.Outcome State Fault Refusal :=
  .next (s.transact 0x03 (2 + rest.length) (setStation rest switchOf (fun v t =>
    t.withItems { t.items with autoRejoin := v })))

/-- SET STATION, detached level (R36, R37): the policy in use takes the value and the driven level is recomputed. -/
def execSetStationDetachedLevel (rest : List Byte) (s : State) : Host.Outcome State Fault Refusal :=
  .next (s.transact 0x03 (2 + rest.length) (setStation rest policyOf (fun v t =>
    ((t.withItems { t.items with detachedLevel := v }).withOutputs { t.outputs with policy := v }).redrive)))

/-- SET STATION, alert mask (R165, R166): the mask in use takes the value and ALERT is re-evaluated. -/
def execSetStationAlertMask (rest : List Byte) (s : State) : Host.Outcome State Fault Refusal :=
  .next (s.transact 0x03 (2 + rest.length) (setStation rest some (fun v t =>
    (t.withItems { t.items with alertMask := v }).withAlerts (Alerts.of t.alerts.pending v))))

/-- SET STATION, founding drop limit: 2 to 8 (R174). -/
def execSetStationFoundingDropLimit (rest : List Byte) (s : State) : Host.Outcome State Fault Refusal :=
  .next (s.transact 0x03 (2 + rest.length) (setStation rest (within 2 8) (fun v t =>
    t.withItems { t.items with foundingDropLimit := v.setWidth 4 })))

/-- SET STATION, founding loss severity (R174). -/
def execSetStationFoundingLossSeverity (rest : List Byte) (s : State) : Host.Outcome State Fault Refusal :=
  .next (s.transact 0x03 (2 + rest.length) (setStation rest lossOf (fun v t =>
    t.withItems { t.items with foundingLoss := v })))

/-! ### SET SOURCE (R133, R162, R170, R171) -/

/-- SET SOURCE, class. -/
def execSetSourceClass (source : Byte) (rest : List Byte) (s : State) : Host.Outcome State Fault Refusal :=
  .next (s.transact 0x04 (3 + rest.length) (setSource source rest classOf (fun n v t =>
    t.withMonitor (t.monitor.setSource n { t.monitor.source n with cls := v }))))

/-- SET SOURCE, mode: the line is watched anew (R124, R133, R173). -/
def execSetSourceMode (source : Byte) (rest : List Byte) (s : State) : Host.Outcome State Fault Refusal :=
  .next (s.transact 0x04 (3 + rest.length) (setLineItem source rest modeOf (fun n v t =>
    (t.withMonitor (t.monitor.setLine n { t.monitor.line n with mode := v })).watchLine n)))

/-- SET SOURCE, polarity: the line is watched anew (R122, R124, R133, R173). -/
def execSetSourcePolarity (source : Byte) (rest : List Byte) (s : State) : Host.Outcome State Fault Refusal :=
  .next (s.transact 0x04 (3 + rest.length) (setLineItem source rest polarityOf (fun n v t =>
    (t.withMonitor (t.monitor.setLine n { t.monitor.line n with polarity := v })).watchLine n)))

/-- SET SOURCE, threshold: 1 to 255; the write itself raises nothing (R133). -/
def execSetSourceThreshold (source : Byte) (rest : List Byte) (s : State) : Host.Outcome State Fault Refusal :=
  .next (s.transact 0x04 (3 + rest.length) (setSource source rest (within 1 255) (fun n v t =>
    t.withMonitor (t.monitor.setSource n { t.monitor.source n with threshold := v }))))

/-! ### Commands that act -/

/-- JOIN (R102, R104, R160). -/
def execJoin (rest : List Byte) (s : State) : Host.Outcome State Fault Refusal :=
  .next (s.transact 0x05 (1 + rest.length) (fun t =>
    if t.ctl.station = .detached then done t.toJoining else refuse .wrongState t))

/-- LEAVE (R116, R160). -/
def execLeave (rest : List Byte) (s : State) : Host.Outcome State Fault Refusal :=
  .next (s.transact 0x06 (1 + rest.length) (fun t =>
    if t.ctl.station = .member then offerNotice t.queue.offerLeave t else refuse .wrongState t))

/-- A source that RAISE may name: 24 to 29 (R125). -/
def raisedSource (b : Byte) : Option (Fin 32) := (within 24 29 b).bind sourceArg

/-- RAISE (R125, R157). -/
def execRaise (rest : List Byte) (s : State) : Host.Outcome State Fault Refusal :=
  .next (s.transact 0x07 (1 + rest.length) (fun t =>
    match rest with
    | source :: a :: b :: c :: d :: _ =>
      match raisedSource source with
      | some n => done (t.assertSource n (word32 a b c d))
      | none => refuse .badArg t
    | _ => refuse .badArg t))

/-- R130: a line source in LEVEL mode whose line is active. -/
def Monitor.levelActive (m : Monitor) (n : Fin 32) : Bool :=
  match lineOf n with
  | some l => decide ((m.line l).mode = .level) && m.active l
  | none => false

/-- RELEASE SOURCE (R130, R157). -/
def execReleaseSource (rest : List Byte) (s : State) : Host.Outcome State Fault Refusal :=
  .next (s.transact 0x08 (1 + rest.length) (withByte rest sourceArg (fun n t =>
    if t.monitor.levelActive n then refuse .active t
    else done (t.withMonitor (t.monitor.setSource n { t.monitor.source n with latched := false })))))

/-- R158: the source's latch is LATCHED; source 32 has no latch. -/
def Monitor.latchedByte (m : Monitor) (source : Byte) : Bool :=
  match sourceArg source with
  | some n => (m.source n).latched
  | none => false

/-- RESOLVE (R158). -/
def execResolve (rest : List Byte) (s : State) : Host.Outcome State Fault Refusal :=
  .next (s.transact 0x09 (1 + rest.length) (withByte rest (within 0 32) (fun b t =>
    if t.monitor.latchedByte b then refuse .active t else offerNotice (t.queue.offerResolve (b.setWidth 6)) t)))

/-- The scope a REQUEST CLEAR byte names (R159). -/
def scopeArg (b : Byte) : Option Scope := if b ≤ 3 then scopeOf (b.setWidth 2) else none

/-- R28, R159: the CLEAR a command asks for, with 0 in the fields its scope does not use. -/
def Queue.offerRequested (q : Queue) (scope : Scope) (origin : Addr) (reference : Word) : Answer :=
  match scope with
  | .first => q.offerClear .first 0 reference
  | .halt => q.offerClear .halt 0 0
  | .origin => q.offerClear .origin origin 0

/-- REQUEST CLEAR (R28, R159). -/
def execRequestClear (rest : List Byte) (s : State) : Host.Outcome State Fault Refusal :=
  .next (s.transact 0x0A (1 + rest.length) (fun t =>
    match rest with
    | sc :: origin :: a :: b :: c :: d :: _ =>
      match scopeArg sc, within 0 15 origin with
      | some scope, some o =>
        if t.ctl.station = .member then
          offerNotice (t.queue.offerRequested scope (o.setWidth 4) (word32 a b c d)) t
        else refuse .wrongState t
      | _, _ => refuse .badArg t
    | _ => refuse .badArg t))

/-- R145: the first record is removed and the oldest next record promoted; an item linked to the removed record loses
its link. -/
def State.clearLocalFirst (s : State) : State :=
  match s.log.first with
  | none => s
  | some r =>
    ((s.withLog s.log.promote).withQueue (s.queue.unlink (r.source.setWidth 6))).setCauseIf
      (!s.log.next.isEmpty) .localFirst

/-- CLEAR LOCAL FIRST (R145, R161). -/
def execClearLocalFirst (rest : List Byte) (s : State) : Host.Outcome State Fault Refusal :=
  .next (s.transact 0x0C (1 + rest.length) (fun t => done t.clearLocalFirst))

/-- CLEAR COUNTER (R131, R157). -/
def execClearCounter (rest : List Byte) (s : State) : Host.Outcome State Fault Refusal :=
  .next (s.transact 0x0E (1 + rest.length) (withByte rest sourceArg (fun n t =>
    done (t.withMonitor (t.monitor.setSource n { t.monitor.source n with counter := 0, flag := false })))))

/-- COMMAND_CODE_NAMES_NO_COMMAND (R150, R152, R178): answered BAD_ARG with the code as received. A transaction of no
whole byte, or with the idle byte first, only shifts out. Bytes that spell another row are not this event (log 23). -/
def execCommandCodeNamesNoCommand (bytes : List Byte) (s : State) : Host.Outcome State Fault Refusal :=
  if spellsNoRow bytes then
    match bytes with
    | [] => .next (s.settleDue.shifts 0)
    | code :: _ =>
      if code = 0xFF then .next (s.settleDue.shifts bytes.length)
      else .next (s.transact code bytes.length (refuse .badArg))
  else .next s.settleDue

end Sys2Proof.Machine
end

