-- ==== Sys2Proof/Machine/Lines.lean ====
section
/-! DEFINITION. LINE_ACTIVE, LINE_INACTIVE and QUALIFICATION_EXPIRY (R122, R123, Table 7-3). A line event that cannot
come, or that comes while RESET is asserted (R135), leaves the state as it is (log 4). -/

namespace Sys2Proof.Machine

/-- The levels of the lines with the level of one line replaced. -/
def setLevel (fin : BitVec 24) (n : Fin 24) (high : Bool) : BitVec 24 :=
  if high then fin ||| BitVec.twoPow 24 n.val else fin &&& ~~~BitVec.twoPow 24 n.val

/-- R122: the level of one line as the Source Monitor reads it. -/
def State.readLevel (n : Fin 24) (high : Bool) (s : State) : State :=
  s.withMonitor { s.monitor with fin := setLevel s.monitor.fin n high }

/-- Table 7-3, "line becomes active": only an INACTIVE tracker answers. -/
def State.lineRises (n : Fin 24) (s : State) : State :=
  match (s.monitor.line n).tracker with
  | .inactive => s.startLine n
  | .qualifying => s
  | .held => s

/-- Table 7-3, "line becomes inactive": the timer is stopped and the tracker goes to INACTIVE, from every state. -/
def State.lineFalls (n : Fin 24) (s : State) : State :=
  s.withMonitor (s.monitor.setLine n { s.monitor.line n with tracker := .inactive, timer := none })

/-- LINE_ACTIVE (R122, R123): an inactive line takes the level its polarity names. -/
def execLineActive (n : Fin 24) (s : State) : Host.Outcome State Fault Refusal :=
  let t := s.settleDue
  if t.operating ∧ t.monitor.active n = false then
    .next ((t.readLevel n (t.monitor.line n).polarity.activeLevel).lineRises n)
  else .next t

/-- LINE_INACTIVE (R122, R123): an active line leaves the level its polarity names. -/
def execLineInactive (n : Fin 24) (s : State) : Host.Outcome State Fault Refusal :=
  let t := s.settleDue
  if t.operating ∧ t.monitor.active n then
    .next ((t.readLevel n (!(t.monitor.line n).polarity.activeLevel)).lineFalls n)
  else .next t

/-- The line's qualification timer is running. -/
def Line.qualifies (l : Line) : Bool := decide (l.tracker = .qualifying) && l.timer.isSome

/-- QUALIFICATION_EXPIRY (R123): the assertion is taken with the level of all lines as detail. -/
def execQualificationExpiry (n : Fin 24) (s : State) : Host.Outcome State Fault Refusal :=
  let t := s.settleDue
  if t.operating ∧ (t.monitor.line n).qualifies then .next (t.takeLine n) else .next t

end Sys2Proof.Machine
end

