-- ==== Sys2Proof/Machine/Settle.lean ====
section
/-! DEFINITION. FRAME_END: classification, loss of step, settlement, application, miss counts, outcome reports
(chapters 3, 5 and 6). -/

namespace Sys2Proof.Machine

/-! ### Classification (R50) -/

/-- R50: the echo check read equals the check computed over the echo read. -/
def tailGood (t : Tail) : Bool := decide (t.check = echoCheck t.echo)

/-- R50: all 16 echo bit times and all 8 echo check bit times read recessive. -/
def tailSilent (t : Tail) : Bool := decide (t.echo = 0) && decide (t.check = 0xFF)

/-- R51: a good echo check and an echo equal to the station's own reading of the ack window. -/
def tailAgrees (t : Tail) : Bool := tailGood t && decide (t.echo = t.ack)

/-- R45, R49: the sender drove the ack map it read and its check; it reads back something else. -/
def Engine.echoDisturbed (e : Engine) (t : Tail) : Bool := e.sent.isSome && !tailAgrees t

/-- R50: the frame is broken as this station reads it. Where the station drives the break, the end mark reads
dominant (R39, R45). -/
def Engine.frameBroken (e : Engine) (t : Tail) : Bool :=
  t.endDominant || e.breaking || e.echoDisturbed t || tailSilent t

/-- The bus is in a frame whose end mark has not been read. -/
def Engine.inFrame (e : Engine) : Bool := decide (e.phase = .body) || decide (e.phase = .tail)

/-- R50: a broken frame: BROKEN-WAIT. R46: a broken transmission of the station's own counts. The recessive bit count is 0
on entry, also where the end mark was read recessive, as after a silent echo: the spec does not say whether that bit, the
first of the gap, counts (DESIGN CHOICE, log 39). -/
def Engine.endBroken (e : Engine) : Engine :=
  { e with
    bus := .brokenWait
    recessive := 0
    phase := .none
    sent := none
    breaking := false
    broken := if e.sent.isSome then e.broken + 1 else e.broken }

/-- A complete frame: the end mark is the first recessive bit time of the gap (R41). R46: a complete transmission
of the station's own returns the consecutive-broken count to 0. -/
def Engine.endComplete (e : Engine) : Engine :=
  { e with
    recessive := 1
    stuckRun := 0
    phase := .gap
    sent := none
    broken := if e.sent.isSome then 0 else e.broken }

/-! ### Loss of step (R52, R53) -/

/-- R53: a bad body could have been a settled ROSTER that removes the station. -/
def State.removable (s : State) : Bool :=
  match s.chassis.record s.self with
  | some r => decide (r.state = .departing) || s.chassis.suspect r
  | none => false

/-- R51: the expecting map of a frame. -/
def State.expecting (f : Frame) (s : State) : StationSet :=
  match f.body with
  | .roster r => r.members
  | .notice _ => s.chassis.map
  | .join => s.chassis.map
  | .snap _ _ => s.chassis.map

/-- R54: the frames a station settles, by its state. -/
def State.judges (f : Frame) (s : State) : Bool :=
  match s.ctl.station with
  | .member | .leaving | .transfer => !f.isJoin && !s.foreign f
  | .joining => f.body.admits s.self
  | .adrift =>
    match f.body with
    | .roster _ => true
    | .notice _ => false
    | .join => false
    | .snap _ _ => false
  | .detached => false

/-- R51: the frame settles at this station. -/
def State.settles (t : Tail) (f : Frame) (s : State) : Bool :=
  tailAgrees t && s.judges f && setWithin (s.expecting f) t.echo

/-- R52, R80: a ROSTER that holds the station with a generation other than its own plus one. -/
def State.wrongGeneration (f : Frame) (s : State) : Bool :=
  match f.body with
  | .roster r => setHas r.members s.self && decide (r.generation ≠ s.chassis.generation + 1)
  | .notice _ => false
  | .join => false
  | .snap _ _ => false

/-- R52, R53: the STEP_LOSS detail of the first cause of Table 3-7 that holds at a complete frame (log 14). -/
def State.lossCause (t : Tail) (s : State) : Option Word :=
  if s.ctl.station.inStep then
    if tailGood t = false then some 0x00000011
    else if t.echo ≠ t.ack then some 0x00000012
    else
      match s.goodBody with
      | some f =>
        if f.sender = s.self ∧ s.notSent then some 0x00000013
        else if s.settles t f ∧ s.wrongGeneration f then some 0x00000014
        else none
      | none => if s.removable ∧ t.echo &&& s.chassis.map ≠ 0 then some 0x00000011 else none
  else none

/-! ### A settled frame at a MEMBER or LEAVING station (R54, R95, R98, R114) -/

/-- R96: the cause a removed station records from the departing map. -/
def State.removalCause (r : RosterBody) (s : State) : Removal :=
  if setHas r.departing s.self then .departed else .dropped

/-- R35, R37: where the frame recomputed the chassis level, last known level and driven level follow. -/
def State.levelApplied (b : Body) (s : State) : State :=
  if b.numbered then (s.withOutputs { s.outputs with lastKnown := s.chassis.level }).redrive else s

/-- R98: a settled ROSTER or LEAVE changes the roster. -/
def Body.changesRoster : Body → Bool
  | .roster _ => true
  | .notice n => n.isLeave
  | .join => false
  | .snap _ _ => false

/-- R114: the admission in progress after a settled frame that is not a SNAP. -/
def Body.admission : Body → Option Admission
  | .roster r =>
    match r.admitted with
    | some a => some { addr := a, total := snapTotal r.withFirst r.entries }
    | none => none
  | .notice _ => none
  | .join => none
  | .snap _ _ => none

/-- R114: a settled frame and the admission in progress: the last SNAP makes the admitted station FULL. -/
def State.trackAdmission (b : Body) (s : State) : State :=
  match b with
  | .snap index _ =>
    match s.ctl.admission with
    | some a =>
      if index = a.total - 1 then
        ((s.withChassis (s.chassis.setMemberState a.addr .full)).withCtl
          { s.ctl with admission := none }).setCause .rosterChange
      else s
    | none => s
  | .notice _ | .join | .roster _ => s.withCtl { s.ctl with admission := b.admission }

/-- R57: a ROSTER the station applies empties the foreign-reported set. -/
def State.clearForeign (b : Body) (s : State) : State :=
  match b with
  | .roster _ => s.withEngine { s.engine with foreign := 0 }
  | .notice _ => s
  | .join => s
  | .snap _ _ => s

/-- R91: a settled frame other than a SNAP makes the transfer sequencer idle. -/
def State.stopSequencer (b : Body) (s : State) : State :=
  match b, s.ctl.duties with
  | .snap _ _, _ => s
  | _, some d => s.withCtl { s.ctl with duties := some { d with sequencer := none } }
  | _, none => s

/-- What a valid copy's station does with a settled frame, whoever sent it. The clear outcome is taken from the copy
before the frame. -/
def State.applyFrame (f : Frame) (s : State) : State :=
  let t := s.withChassis (s.chassis.apply f.sender f.body)
  let t := t.setCauseIf (decide (t.chassis.first.isSome ≠ s.chassis.first.isSome)) .chassisFirst
  let t := t.setCauseIf f.body.changesRoster .rosterChange
  (((t.levelApplied f.body).trackAdmission f.body).clearForeign f.body).stopSequencer f.body

/-! ### The sender's reports of a settled frame (R32, R74, R90, R91, R92, R116) -/

/-- R74: the settled head leaves the queue, and a linked record becomes REPORTED with the frame settle number. -/
def State.settleHead (settle : Word) (s : State) : State :=
  match s.queue.headLink with
  | some source => (s.withQueue s.queue.settleHead).markRecord source (.reported settle)
  | none => s.withQueue s.queue.settleHead

/-- R32: the clear outcome record of a CLEAR this station sent. `before` is the copy before the frame. -/
def State.recordClear (n : Notice) (before : Chassis) (s : State) : State :=
  match n with
  | .clear scope origin reference =>
    let c : ClearRecord :=
      { scope, origin, reference, outcome := before.clearOutcome s.self scope origin reference,
        settle := before.nextSettle }
    (s.withPort { s.port with clear := some c }).setCause .clearOutcome
  | .fault _ => s
  | .resolve _ => s
  | .leave => s

/-- R116: the station's own settled LEAVE moves it to LEAVING. -/
def State.ownLeave (n : Notice) (s : State) : State :=
  if n.isLeave then s.withCtl { s.ctl with station := .leaving, joinTimer := none } else s

/-- R90, R91: the roster station's duties after its own roster frame settled. -/
def Duties.settled (d : Duties) (b : Body) : Duties :=
  match b with
  | .roster r =>
    match r.admitted with
    | some a =>
      { list := d.list.filter (fun x => decide (x ≠ a)),
        sequencer := some { addr := a, next := 0, total := snapTotal r.withFirst r.entries }, retries := 0 }
    | none => { d with retries := 0 }
  | .snap _ _ =>
    { d with
      sequencer := match d.sequencer with
        | some q => if q.next + 1 = q.total then none else some { q with next := q.next + 1 }
        | none => none
      retries := 0 }
  | .notice _ => { d with retries := 0 }
  | .join => { d with retries := 0 }

/-- What a settled frame brings at its sender, by the path that offered it (R54). -/
def State.reportSettled (path : Path) (f : Frame) (before : Chassis) (s : State) : State :=
  match path with
  | .roster => s.withCtl { s.ctl with duties := s.ctl.duties.map (fun d => d.settled f.body) }
  | .queue =>
    match f.body with
    | .notice n => ((s.settleHead before.nextSettle).recordClear n before).ownLeave n
    | .join => s
    | .roster _ => s
    | .snap _ _ => s
  | .join => s

/-! ### A settled frame at the other stations (R107, R112, R113, R115, R119) -/

/-- R112: the joiner's copy after a SNAP of the expected index, when its content is in range. -/
def Chassis.takeSnap (c : Chassis) (x : Transfer) (index : BitVec 6) (content : BitVec 90) : Option Chassis :=
  if index = 0 then
    let h := readHeader content
    if h.total = x.total then
      some { c with settle := h.settle, dropped := h.dropped, halt := h.halt, sinceFirst := h.sinceFirst }
    else none
  else if index = 1 ∧ x.withFirst then
    match readFirst content with
    | some f => some { c with first := some f }
    | none => none
  else
    match readEntry content with
    | some e => if c.table.any e.same then none else some { c with table := c.table ++ [e] }
    | none => none

/-- R113: the transfer is complete. -/
def State.completeTransfer (s : State) : State :=
  ((s.withChassis (s.chassis.setMemberState s.self .full)).setCauseIf s.chassis.first.isSome .chassisFirst).toMember

/-- R112, R115: a settled SNAP at the joiner; a rejected one voids the transfer. -/
def State.joinerSnap (index : BitVec 6) (content : BitVec 90) (s : State) : State :=
  match s.ctl.transfer with
  | none => s.toAdrift 0x00000016
  | some x =>
    if index = x.next then
      match s.chassis.takeSnap x index content with
      | none => s.toAdrift 0x00000016
      | some c =>
        let t := (s.withChassis c).withCtl
          { s.ctl with transfer := some { x with next := x.next + 1 }, joinTimer := some s.items.joinWait }
        if x.next + 1 = x.total then t.completeTransfer else t
    else s.toAdrift 0x00000016

/-- R96, R107, R111: a JOINING station takes its roster from the ROSTER that admits it and enters TRANSFER. -/
def State.toTransfer (r : RosterBody) (s : State) : State :=
  let t := s.withChassis (Chassis.empty.adopt r)
  let t := t.withEngine { t.engine with foreign := 0 }
  t.withCtl { t.ctl with
    station := .transfer
    joinOwed := false
    joinTimer := some t.items.joinWait
    transfer := some { next := 0, total := snapTotal r.withFirst r.entries, withFirst := r.withFirst } }

/-- R96, R98, R103: a MEMBER or LEAVING station is removed by a settled ROSTER that leaves it out. An automatic join
follows a drop from MEMBER. For a LEAVING station that the departing map does not hold R117 gives cause departed and R96
dropped: the model takes the departing map (DESIGN CHOICE, log 42). -/
def State.removedBy (r : RosterBody) (s : State) : State :=
  (s.toDetached (s.removalCause r)
    (decide (s.ctl.station = .member) && !setHas r.departing s.self && s.items.autoRejoin)).setCause .rosterChange

/-- R119, R103: an ADRIFT station is left out by a settled ROSTER (log 13, log 28). -/
def State.adriftRemovedBy (r : RosterBody) (s : State) : State :=
  (s.toDetached (s.removalCause r) (s.items.autoRejoin && !s.ctl.adriftLeaving)).setCause .rosterChange

/-- The reports of a settled frame, when this station sent it. R91 does not say whose SNAP it is that advances the
sequencer: the model advances a busy sequencer at this station's own SNAPs alone, while the admission in progress (R114)
follows a SNAP of any sender (DESIGN CHOICE, log 36). -/
def State.reportIfOwn (f : Frame) (before : Chassis) (s : State) : State :=
  match s.engine.sent with
  | some x => s.reportSettled x.path f before
  | none => s

/-- A settled frame at a MEMBER or LEAVING station: a ROSTER that leaves it out removes it (R96); any other is
applied, and reported where this station sent it. -/
def State.settleAtMember (f : Frame) (s : State) : State :=
  match f.body with
  | .roster r =>
    if setHas r.members s.self then (s.applyFrame f).reportIfOwn f s.chassis else s.removedBy r
  | .notice _ | .join | .snap _ _ => (s.applyFrame f).reportIfOwn f s.chassis

/-- A settled frame at a TRANSFER station: a SNAP is applied, any other voids the transfer (R112, R115). -/
def State.settleAtTransfer (f : Frame) (s : State) : State :=
  match f.body with
  | .snap index content => s.joinerSnap index content
  | .notice _ | .join | .roster _ => s.toAdrift 0x00000016

/-- A settled frame, by the station's state (R54). -/
def State.settleFrame (f : Frame) (s : State) : State :=
  match s.ctl.station with
  | .member | .leaving => s.settleAtMember f
  | .transfer => s.settleAtTransfer f
  | .joining =>
    match f.body with
    | .roster r => s.toTransfer r
    | .notice _ | .join | .snap _ _ => s
  | .adrift =>
    match f.body with
    | .roster r => if setHas r.members s.self then s else s.adriftRemovedBy r
    | .notice _ | .join | .snap _ _ => s
  | .detached => s

/-! ### Frames that do not settle (R72, R92, R93, R104) -/

/-- R93: an admitting ROSTER acknowledged by every member of its expecting map but the admitted station. -/
def Body.failedAdmission (b : Body) (echo : StationSet) : Option Addr :=
  match b with
  | .roster r =>
    match r.admitted with
    | some a =>
      if setWithin (r.members &&& ~~~setSingle a) echo ∧ setHas echo a = false then some a else none
    | none => none
  | .notice _ => none
  | .join => none
  | .snap _ _ => none

/-- R92, R93: the roster station's duties after its roster frame broke or did not settle. -/
def Duties.failed (d : Duties) (admission : Option Addr) : Duties :=
  { d with
    list := match admission with
      | some a => d.list.filter (fun x => decide (x ≠ a))
      | none => d.list
    retries := d.retries + 1 }

/-- R72, R92: a broken frame is reported to the block that offered it; a JOIN stays owed (R104). -/
def State.reportBroken (s : State) : State :=
  match s.engine.sent with
  | some x =>
    match x.path with
    | .queue => s.withQueue (s.queue.modifyHead Head.transmitted)
    | .roster => s.withCtl { s.ctl with duties := s.ctl.duties.map (fun d => d.failed none) }
    | .join => s
  | none => s

/-- R104: the station's own JOIN ends complete: no longer owed, and the join timer starts. -/
def State.joinComplete (s : State) : State :=
  if s.ctl.station = .joining then
    s.withCtl { s.ctl with joinOwed := false, joinTimer := some s.items.joinWait }
  else s

/-- R72, R92, R93, R104: a complete frame that did not settle is reported to the block that offered it. -/
def State.reportUnsettled (t : Tail) (s : State) : State :=
  match s.engine.sent with
  | some x =>
    match x.path with
    | .queue => s.withQueue (s.queue.modifyHead Head.transmitted)
    | .roster =>
      let failed := match s.goodBody with
        | some f => f.body.failedAdmission t.echo
        | none => none
      s.withCtl { s.ctl with duties := s.ctl.duties.map (fun d => d.failed failed) }
    | .join => s.joinComplete
  | none => s

/-! ### After the echo (R55, R84, R117, R119) -/

/-- R55, R57: the frame's echo is counted: it is not a settled ROSTER and not a foreign frame (log 15). -/
def State.counts (t : Tail) (s : State) : Bool :=
  match s.goodBody with
  | some f =>
    !s.foreign f &&
      (match f.body with
       | .roster _ => !s.settles t f
       | .notice _ => true
       | .join => true
       | .snap _ _ => true)
  | none => true

/-- R55: the miss counts of a station that was and is in step. -/
def State.countMisses (counted : Bool) (echo : StationSet) (s : State) : State :=
  if counted && s.ctl.station.inStep then s.withChassis (s.chassis.countMisses echo) else s

/-- R84, R117: the roster station is computed; a LEAVING station that finds none becomes DETACHED. -/
def State.afterEcho (s : State) : State :=
  if s.copyValid then
    if s.ctl.station = .leaving ∧ s.chassis.rosterStation = none then s.toDetached .departed false
    else s.computeRoster
  else s

/-- R119: a complete frame at a station that was and is ADRIFT. -/
def State.countAdrift (wasAdrift : Bool) (s : State) : State :=
  if wasAdrift && decide (s.ctl.station = .adrift) then
    s.withCtl { s.ctl with adriftFrames := s.ctl.adriftFrames + 1 }
  else s

/-- The verdict on a complete frame at which the station has not lost step (R51): settled, or reported as not. -/
def State.verdict (t : Tail) (s : State) : State :=
  match s.goodBody with
  | some f => if s.settles t f then s.settleFrame f else s.reportUnsettled t
  | none => s.reportUnsettled t

/-- A complete frame (R51 to R56). -/
def State.complete (t : Tail) (s : State) : State :=
  match s.lossCause t with
  | some code => s.toAdrift code
  | none =>
    (((s.verdict t).countMisses (s.ctl.station.inStep && s.counts t) t.echo).afterEcho).countAdrift
      (decide (s.ctl.station = .adrift))

/-- FRAME_END (R50 to R57, R7 to R16, R28 to R32, R72, R74, R91 to R96, R112 to R119): the frame is classified at
the end of its end mark and its outcome decided. After a board reset cut the station's own echo short, the frame end
is where the break stops (R59). -/
def execFrameEnd (tail : Tail) (s : State) : Host.Outcome State Fault Refusal :=
  let t := s.settleDue
  if t.operating ∧ t.engine.inFrame then
    if t.engine.frameBroken tail then .next (t.reportBroken.withEngine t.engine.endBroken)
    else
      let u := t.complete tail
      .next (u.withEngine u.engine.endComplete)
  else if t.engine.breaking then .next (t.withEngine { t.engine with breaking := false })
  else .next t

end Sys2Proof.Machine
end

