-- ==== Sys2Proof/Machine/Timers.lean ====
section
/-! DEFINITION. The Roster Controller's own events: ADRIFT_FRAME_COUNT_EXPIRY, AUTOMATIC_JOIN, JOIN_WAIT_EXPIRY,
TRANSFER_TIMER_EXPIRY, ADRIFT_WAIT_EXPIRY (chapter 6). An expiry that cannot come leaves the state as it is (log 4). -/

namespace Sys2Proof.Machine

/-- The join timer runs in a given station state (R101). -/
def State.timing (st : Station) (s : State) : Bool :=
  s.operating && decide (s.ctl.station = st) && s.ctl.joinTimer.isSome

/-- ADRIFT_FRAME_COUNT_EXPIRY (R119). Taken when it is due (log 5). -/
def execAdriftFrameCountExpiry (s : State) : Host.Outcome State Fault Refusal := .next s.fireAdriftCount

/-- AUTOMATIC_JOIN (R103, R104): the join timer expires with an automatic join pending. -/
def execAutomaticJoin (s : State) : Host.Outcome State Fault Refusal :=
  let t := s.settleDue
  if t.timing .detached ∧ t.ctl.joinPending then .next t.toJoining else .next t

/-- R108, R174: the station founds a chassis; its admission list takes the heard list in the order heard. -/
def State.found (s : State) : State :=
  let t := s.withChassis (Chassis.founded s.self s.items.foundingDropLimit s.items.foundingLoss)
  let t := (t.withEngine { t.engine with foreign := 0 }).toMember
  t.withCtl { t.ctl with duties := t.ctl.duties.map (fun d => { d with list := s.ctl.heardList }) }

/-- R106: the join wait expires with the traffic flag set: one more attempt, and a new JOIN is owed. -/
def State.retryJoin (s : State) : State :=
  s.withCtl { s.ctl with
    joinTimer := none
    attempts := satInc s.ctl.attempts
    heardTraffic := false
    heardList := []
    joinOwed := true }

/-- JOIN_WAIT_EXPIRY (R106). -/
def execJoinWaitExpiry (s : State) : Host.Outcome State Fault Refusal :=
  let t := s.settleDue
  if t.timing .joining then
    if t.ctl.heardTraffic then .next t.retryJoin else .next t.found
  else .next t

/-- TRANSFER_TIMER_EXPIRY (R115, R118): the transfer is void. -/
def execTransferTimerExpiry (s : State) : Host.Outcome State Fault Refusal :=
  let t := s.settleDue
  if t.timing .transfer then .next (t.toAdrift 0x00000016) else .next t

/-- ADRIFT_WAIT_EXPIRY (R119). -/
def execAdriftWaitExpiry (s : State) : Host.Outcome State Fault Refusal :=
  let t := s.settleDue
  if t.timing .adrift then .next t.exitAdrift else .next t

end Sys2Proof.Machine
end

