-- ==== Sys2Proof/Machine/Dispatch.lean ====
section
/-! DEFINITION. The meaning of each command: one arm for each row of the opcode table. -/

namespace Sys2Proof.Machine

/-- The effect of a command on everything but the queue of commands. -/
def exec (i : Instr) (s : State) : Host.Outcome State Fault Refusal :=
  match i with
  | .powerOn => Sys2Proof.Machine.execPowerOn s
  | .endOfPowerOn addr rate autojoin pins => Sys2Proof.Machine.execEndOfPowerOn addr rate autojoin pins s
  | .resetAsserted moment => Sys2Proof.Machine.execResetAsserted moment s
  | .resetReleased rate autojoin pins => Sys2Proof.Machine.execResetReleased rate autojoin pins s
  | .busIdle => Sys2Proof.Machine.execBusIdle s
  | .frameStart byOther => Sys2Proof.Machine.execFrameStart byOther s
  | .arbitrationLoss atUrgency => Sys2Proof.Machine.execArbitrationLoss atUrgency s
  | .headAging => Sys2Proof.Machine.execHeadAging s
  | .transmissionFault => Sys2Proof.Machine.execTransmissionFault s
  | .bodyReceived bits => Sys2Proof.Machine.execBodyReceived bits s
  | .frameEnd tail => Sys2Proof.Machine.execFrameEnd tail s
  | .repeatedBreaks => Sys2Proof.Machine.execRepeatedBreaks s
  | .stuckLine => Sys2Proof.Machine.execStuckLine s
  | .retryExhaustion => Sys2Proof.Machine.execRetryExhaustion s
  | .rosterRetryExhaustion => Sys2Proof.Machine.execRosterRetryExhaustion s
  | .adriftFrameCountExpiry => Sys2Proof.Machine.execAdriftFrameCountExpiry s
  | .automaticJoin => Sys2Proof.Machine.execAutomaticJoin s
  | .joinWaitExpiry => Sys2Proof.Machine.execJoinWaitExpiry s
  | .transferTimerExpiry => Sys2Proof.Machine.execTransferTimerExpiry s
  | .adriftWaitExpiry => Sys2Proof.Machine.execAdriftWaitExpiry s
  | .lineActive line => Sys2Proof.Machine.execLineActive line s
  | .lineInactive line => Sys2Proof.Machine.execLineInactive line s
  | .qualificationExpiry line => Sys2Proof.Machine.execQualificationExpiry line s
  | .status rest => Sys2Proof.Machine.execStatus rest s
  | .readAlerts rest => Sys2Proof.Machine.execReadAlerts rest s
  | .setStationQualifyTime rest => Sys2Proof.Machine.execSetStationQualifyTime rest s
  | .setStationJoinWait rest => Sys2Proof.Machine.execSetStationJoinWait rest s
  | .setStationAutoRejoin rest => Sys2Proof.Machine.execSetStationAutoRejoin rest s
  | .setStationDetachedLevel rest => Sys2Proof.Machine.execSetStationDetachedLevel rest s
  | .setStationAlertMask rest => Sys2Proof.Machine.execSetStationAlertMask rest s
  | .setStationFoundingDropLimit rest => Sys2Proof.Machine.execSetStationFoundingDropLimit rest s
  | .setStationFoundingLossSeverity rest => Sys2Proof.Machine.execSetStationFoundingLossSeverity rest s
  | .setSourceClass source rest => Sys2Proof.Machine.execSetSourceClass source rest s
  | .setSourceMode source rest => Sys2Proof.Machine.execSetSourceMode source rest s
  | .setSourcePolarity source rest => Sys2Proof.Machine.execSetSourcePolarity source rest s
  | .setSourceThreshold source rest => Sys2Proof.Machine.execSetSourceThreshold source rest s
  | .join rest => Sys2Proof.Machine.execJoin rest s
  | .leave rest => Sys2Proof.Machine.execLeave rest s
  | .raise rest => Sys2Proof.Machine.execRaise rest s
  | .releaseSource rest => Sys2Proof.Machine.execReleaseSource rest s
  | .resolve rest => Sys2Proof.Machine.execResolve rest s
  | .requestClear rest => Sys2Proof.Machine.execRequestClear rest s
  | .readLocal rest => Sys2Proof.Machine.execReadLocal rest s
  | .clearLocalFirst rest => Sys2Proof.Machine.execClearLocalFirst rest s
  | .readCounter rest => Sys2Proof.Machine.execReadCounter rest s
  | .clearCounter rest => Sys2Proof.Machine.execClearCounter rest s
  | .readEntry rest => Sys2Proof.Machine.execReadEntry rest s
  | .readChassisFirst rest => Sys2Proof.Machine.execReadChassisFirst rest s
  | .readRoster rest => Sys2Proof.Machine.execReadRoster rest s
  | .commandCodeNamesNoCommand bytes => Sys2Proof.Machine.execCommandCodeNamesNoCommand bytes s

end Sys2Proof.Machine
end

