-- ==== Sys2Proof/Safety.lean ====
section
/-! DEFINITION. What a claim about a run of the station may rest on: the conditions that every step keeps. A run is safe
when no step of it ends in a fault or a refusal; every step here ends in a next state. -/

namespace Sys2Proof.Machine

/-- R166: ALERT is asserted exactly while an unmasked cause is pending. -/
def Alerts.ok (a : Alerts) : Prop := a.line = alertLine a.pending a.mask

/-- R34, Table 2-6: the three lines are those of the driven level. -/
def Outputs.ok (o : Outputs) : Prop :=
  o.watch = decide (o.driven ≠ .quiet)
    ∧ o.contain = decide (o.driven = .contain ∨ o.driven = .halt)
    ∧ o.haltLine = decide (o.driven = .halt)

/-- The output pins follow the state behind them. -/
def State.pinsFollow (s : State) : Prop := s.alerts.ok ∧ s.outputs.ok

/-- R26, R34, R35: the driven level is the one the station has to drive, and a valid copy's level is derived from its latch
and table and is the last known level. -/
def State.levelFollows (s : State) : Prop :=
  s.outputs.driven = s.levelToDrive
    ∧ (s.copyValid = true →
        s.chassis.level = deriveLevel s.chassis.halt s.chassis.table ∧ s.outputs.lastKnown = s.chassis.level)

/-- R2: at most 32 entries, and never two with the same origin and source. -/
def tableOk (table : List Entry) : Prop :=
  table.length ≤ 32 ∧ table.Pairwise (fun a b => ¬(a.origin = b.origin ∧ a.source = b.source))

/-- Two items are FAULT notices for the same source. -/
def Item.clash (a b : Item) : Prop := ∃ n, a.notice.isFault n = true ∧ b.notice.isFault n = true

/-- R61: at most 8 items; the waiting items stand by base urgency and, among equals, by age; no two of them are FAULT
notices for the same source. -/
def Queue.ok (q : Queue) : Prop :=
  q.count ≤ 8 ∧ q.waiting.Pairwise (fun a b => b.ahead a = false) ∧ q.waiting.Pairwise (fun a b => ¬a.clash b)

/-- R138, R145: at most 8 next records, at most one record for each source, and no next record without a first. -/
def Log.ok (l : Log) : Prop :=
  l.next.length ≤ 8 ∧ (l.records.map Record.source).Nodup ∧ (l.first = none → l.next = [])

/-- R2, R61, R138: the fault table, the notice queue and the local records keep their capacities and their order. -/
def State.bounded (s : State) : Prop := tableOk s.chassis.table ∧ s.queue.ok ∧ s.log.ok

/-- R111, R112: what a transfer in progress has received is what its indexes say, and its total is that of a ROSTER of at
most 32 entries (R94). -/
def State.transferOk (s : State) : Prop :=
  ∀ x, s.ctl.transfer = some x →
    s.ctl.station = .transfer
      ∧ s.chassis.table.length = x.next.toNat - 1 - x.withFirst.toNat
      ∧ x.next.toNat < x.total.toNat
      ∧ x.total.toNat ≤ 33 + x.withFirst.toNat

/-- The conditions that every step keeps, together. -/
def State.sound (s : State) : Prop := s.pinsFollow ∧ s.levelFollows ∧ s.bounded ∧ s.transferOk

/-- R85, R169: a station without a valid copy has no roster duties, and the join wait and the founding drop limit keep the
ranges of Table 10-2. -/
def State.legal (s : State) : Prop :=
  (s.copyValid = false → s.ctl.duties = none)
    ∧ 1 ≤ s.items.joinWait ∧ 2 ≤ s.items.foundingDropLimit ∧ s.items.foundingDropLimit ≤ 8

/-- No event that the station makes due by itself waits (log 5): no aging (R71), no count at its limit (R46, R73, R92,
R119). -/
def State.nothingDue (s : State) : Prop :=
  (∀ h, s.queue.inFlight = some h → h.agingDue = false ∧ h.transmissions < 16)
    ∧ s.engine.broken < 4
    ∧ (∀ d, s.ctl.duties = some d → d.retries < 16)
    ∧ (s.ctl.station = .adrift → s.ctl.adriftFrames < 16)

/-- The station runs, and takes the next command as it stands. -/
def State.ready (s : State) : Prop := s.operating = true ∧ s.nothingDue

/-- It is ready, and the transaction on its port began after the last reset ended, so that its command is taken (R150). -/
def State.listening (s : State) : Prop := s.ready ∧ s.port.straddle = none

end Sys2Proof.Machine
end

