-- ==== Sys2Proof/Certificates/Slice0/Obligations.lean ====
section
/-! DEFINITION. The statements for the provers. Their words and the rules they rest on are in OBLIGATIONS.json. -/

open Sys2Proof Sys2Proof.Machine

/-! ### Words of the statements -/

/-- The rows that wait until what is due inside the station has come: all but supply and RESET and the five due rows
themselves (log 5). -/
def Sys2Proof.Spec.waits (c : Instr) : Prop :=
  c ≠ .powerOn ∧ (∀ a r j f, c ≠ .endOfPowerOn a r j f) ∧ (∀ p, c ≠ .resetAsserted p)
    ∧ (∀ r j f, c ≠ .resetReleased r j f) ∧ c ≠ .headAging ∧ c ≠ .repeatedBreaks ∧ c ≠ .retryExhaustion
    ∧ c ≠ .rosterRetryExhaustion ∧ c ≠ .adriftFrameCountExpiry

/-- R7, R12, R94, R110: the bodies that are well-formed for their kind. -/
def Sys2Proof.Spec.wellFormed : Body → Prop
  | .notice (.fault r) => r.source < 32 ∧ r.occurrences ≠ 0
  | .notice (.resolve source) => source ≤ 32
  | .notice (.clear _ _ _) => True
  | .notice .leave => True
  | .join => True
  | .roster r =>
    r.members ≠ 0 ∧ (∀ a, setHas r.departing a = true → setHas r.members a = false)
      ∧ (∀ a, setHas r.newMembers a = true → setHas r.members a = true)
      ∧ 2 ≤ r.dropLimit ∧ r.dropLimit ≤ 8 ∧ r.entries ≤ 32
      ∧ (∀ a, r.admitted = some a → setHas r.members a = true ∧ setHas r.newMembers a = true ∧ r.departing = 0)
      ∧ (r.admitted = none → r.entries = 0 ∧ r.withFirst = false)
  | .snap index content => index ≤ 33 ∧ (index = 0 → 1 ≤ content.extractLsb' 84 6 ∧ content.extractLsb' 84 6 ≤ 34)

/-- Table 11-1: kind codes. -/
def Sys2Proof.Spec.kindCode : Body → BitVec 3
  | .notice (.fault _) => 0
  | .notice (.resolve _) => 1
  | .notice (.clear _ _ _) => 2
  | .notice .leave => 3
  | .join => 4
  | .roster _ => 5
  | .snap _ _ => 6

/-- Table 11-1: severity codes; 0 is none. -/
def Sys2Proof.Spec.severityCode : Option Severity → BitVec 2
  | none => 0
  | some .minor => 1
  | some .major => 2
  | some .critical => 3

/-- Table 11-1: scope codes. -/
def Sys2Proof.Spec.scopeCode : Scope → BitVec 2
  | .first => 0
  | .halt => 1
  | .origin => 2

/-- Table 11-3: a payload carries the fields of a body, each at its payload bits. An absent admitted station is a clear
present flag and a field of 0 (R94). -/
def Sys2Proof.Spec.carries (p : PayloadBits) : Body → Prop
  | .notice (.fault r) =>
    p.extractLsb' 90 6 = r.source ∧ p.extractLsb' 88 2 = Sys2Proof.Spec.severityCode (some r.severity)
      ∧ p.extractLsb' 80 8 = r.occurrences ∧ p.extractLsb' 48 32 = r.detail ∧ p.extractLsb' 32 16 = r.number
  | .notice (.resolve source) => p.extractLsb' 90 6 = source
  | .notice (.clear scope origin reference) =>
    p.extractLsb' 94 2 = Sys2Proof.Spec.scopeCode scope ∧ p.extractLsb' 90 4 = origin ∧ p.extractLsb' 58 32 = reference
  | .notice .leave => True
  | .join => True
  | .roster r =>
    p.extractLsb' 80 16 = r.generation ∧ p.extractLsb' 64 16 = r.members ∧ p.extractLsb' 48 16 = r.departing
      ∧ p.extractLsb' 32 16 = r.newMembers
      ∧ (∀ a, r.admitted = some a → p.getLsbD 27 = true ∧ p.extractLsb' 28 4 = a)
      ∧ (r.admitted = none → p.getLsbD 27 = false ∧ p.extractLsb' 28 4 = 0)
      ∧ p.extractLsb' 23 4 = r.dropLimit ∧ p.extractLsb' 21 2 = Sys2Proof.Spec.severityCode r.loss
      ∧ p.extractLsb' 15 6 = r.entries ∧ p.getLsbD 14 = r.withFirst
  | .snap index content => p.extractLsb' 90 6 = index ∧ p.extractLsb' 0 90 = content

/-- Table 11-3: how many payload bits, from bit 0 up, the kind of a body leaves unused. -/
def Sys2Proof.Spec.unused : Body → Nat
  | .notice (.fault _) => 32
  | .notice (.resolve _) => 90
  | .notice (.clear _ _ _) => 58
  | .notice .leave => 96
  | .join => 96
  | .roster _ => 14
  | .snap _ _ => 0

/-- R177: the shift register of a check after a run of bits, from a value it holds. -/
def Sys2Proof.Spec.shiftedIn {w : Nat} (poly : BitVec w) : BitVec w → List Bool → BitVec w
  | reg, [] => reg
  | reg, b :: rest =>
    Sys2Proof.Spec.shiftedIn poly (if reg.msb = b then reg <<< 1 else (reg <<< 1) ^^^ poly) rest

/-- Table 11-4: the frame check of the 106 bits of urgency, sender, kind and payload, the first sent the most
significant (R176). -/
def Sys2Proof.Spec.frameCheckOf (x : BitVec 106) : BitVec 16 :=
  Sys2Proof.Spec.shiftedIn 0x1021 0xFFFF ((List.range 106).map (fun i => x.getLsbD (105 - i)))

/-- Table 11-2, R47: the 122 bits of a frame from urgency to frame check carry its fields, with a good check. -/
def Sys2Proof.Spec.laidOut (bits : BodyBits) (f : Frame) : Prop :=
  bits.extractLsb' 119 3 = f.urgency ∧ bits.extractLsb' 115 4 = f.sender
    ∧ bits.extractLsb' 112 3 = Sys2Proof.Spec.kindCode f.body
    ∧ Sys2Proof.Spec.carries (bits.extractLsb' 16 96) f.body
    ∧ bits.extractLsb' 0 16 = Sys2Proof.Spec.frameCheckOf (bits.extractLsb' 16 106)

/-- R26: the level of a table and a halt latch. -/
def Sys2Proof.Spec.levelOf (halt : Bool) (table : List Entry) (l : Level) : Prop :=
  (halt = true → l = .halt)
    ∧ (halt = false → table = [] → l = .quiet)
    ∧ (halt = false → (∀ e ∈ table, e.severity.level.rank ≤ l.rank)
        ∧ (table ≠ [] → ∃ e ∈ table, l = e.severity.level))

/-- What a FAULT or a LOSS creation does to first record and since-first count (R21, R22). -/
def Sys2Proof.Spec.offered (c d : Chassis) (e : Entry) : Prop :=
  (c.first = none → d.first = some ⟨e.origin, e.source, e.severity, e.firstSettle, e.detail⟩
      ∧ d.sinceFirst = c.sinceFirst)
    ∧ (∀ f, c.first = some f → d.first = some f
      ∧ d.sinceFirst.toNat = min 65535 (c.sinceFirst.toNat + 1))

/-- What a FAULT leaves as it was in the copy, and its settle number and level (R4, R26). -/
def Sys2Proof.Spec.faultFrame (c d : Chassis) : Prop :=
  d.settle = c.settle + 1 ∧ d.generation = c.generation ∧ d.records = c.records ∧ d.dropLimit = c.dropLimit
    ∧ d.loss = c.loss ∧ Sys2Proof.Spec.levelOf d.halt d.table d.level

/-- R13, R8 to R11, R21, R22, R24: one LOSS creation, of a station and a severity, at a copy. -/
def Sys2Proof.Spec.lossTaken (sev : Severity) (settle : Word) (a : Addr) (c d : Chassis) : Prop :=
  (∀ (pre post : List Entry) (x : Entry), c.table = pre ++ x :: post → x.origin = a → x.source = 32 →
      (∀ y ∈ pre ++ post, ¬(y.origin = a ∧ y.source = 32)) →
      ∃ y, d.table = pre ++ y :: post ∧ y.origin = a ∧ y.source = 32 ∧ y.firstSettle = x.firstSettle
        ∧ y.absent = x.absent ∧ y.occurrences.toNat = min 255 (x.occurrences.toNat + 1)
        ∧ y.severity = x.severity.higher sev ∧ y.detail = 0
        ∧ d.dropped = c.dropped ∧ d.halt = (c.halt || decide (y.severity = .critical)))
    ∧ ((∀ y ∈ c.table, ¬(y.origin = a ∧ y.source = 32)) →
      (c.table.length < 32 → d.table = c.table ++ [⟨a, 32, sev, settle, 1, 0, true⟩] ∧ d.dropped = c.dropped
        ∧ d.halt = (c.halt || decide (sev = .critical)))
      ∧ (c.table.length = 32 →
        (∀ (pre post : List Entry) (x : Entry), c.table = pre ++ x :: post →
          (∀ y ∈ pre, x.severity.rank < y.severity.rank) → (∀ y ∈ post, x.severity.rank ≤ y.severity.rank) →
          x.severity.rank < sev.rank →
          d.table = pre ++ post ++ [⟨a, 32, sev, settle, 1, 0, true⟩] ∧ d.dropped = c.dropped
            ∧ d.halt = (c.halt || decide (sev = .critical)))
        ∧ ((∀ y ∈ c.table, sev.rank ≤ y.severity.rank) →
          d.table = c.table ∧ d.dropped.toNat = min 65535 (c.dropped.toNat + 1) ∧ d.halt = c.halt)))
    ∧ Sys2Proof.Spec.offered c d ⟨a, 32, sev, settle, 1, 0, true⟩
    ∧ d.settle = c.settle ∧ d.generation = c.generation ∧ d.records = c.records ∧ d.dropLimit = c.dropLimit
    ∧ d.loss = c.loss ∧ d.level = c.level

/-- R13: the LOSS creations of a list of stations, one after another. -/
def Sys2Proof.Spec.lossesTaken (sev : Severity) (settle : Word) : List Addr → Chassis → Chassis → Prop
  | [], c, d => d = c
  | a :: rest, c, d =>
    ∃ m, Sys2Proof.Spec.lossTaken sev settle a c m ∧ Sys2Proof.Spec.lossesTaken sev settle rest m d

/-! ### Steps, invariants, encodings -/

/-- A step runs the command at the front of the queue; an empty queue idles. The model's choice: log 2. -/
def Obligations.StepRunsTheFrontCommand : Prop :=
  (∀ (c : Instr) (rest : List Instr) (s : State), s.pending = c :: rest → step s = exec c (s.withPending rest))
    ∧ ∀ s : State, s.pending = [] → step s = .next s

/-- Every command answers a next state, and due internal events come before it. The model's choice: log 5. -/
def Obligations.EveryCommandCompletesAfterTheDueEvents : Prop :=
  (∀ (c : Instr) (s : State), ∃ t, exec c s = .next t)
    ∧ ((∀ (c : Instr) (s : State), Sys2Proof.Spec.waits c → s.settleDue.nothingDue ∧ exec c s = exec c s.settleDue)
      ∧ (∀ (moment : Moment) (s : State), s.power.resetLow = false →
        s.settleDue.nothingDue ∧ s.settleDue.power = s.power
          ∧ exec (.resetAsserted moment) s = exec (.resetAsserted moment) s.settleDue)
      ∧ ∀ s : State, ∃ a b c d, exec .headAging s = .next a ∧ exec .repeatedBreaks a = .next b
          ∧ exec .retryExhaustion b = .next c ∧ exec .rosterRetryExhaustion c = .next d
          ∧ exec .adriftFrameCountExpiry d = .next s.settleDue)

/-- Every step keeps the invariants of Safety.lean. -/
def Obligations.StepKeepsTheInvariants : Prop :=
  ∀ s t : State, s.sound → step s = .next t → t.sound

/-- The state after power-on meets the invariants. -/
def Obligations.ResetStateMeetsTheInvariants : Prop :=
  State.reset.sound

/-- Every step keeps the roster duties with a valid copy and the station items in range. -/
def Obligations.DutiesAndItemsStayLegal : Prop :=
  State.reset.legal ∧ ∀ s t : State, s.legal → step s = .next t → t.legal

/-- A frame body reads good exactly with a good check and a well-formed payload, each field in its place. -/
def Obligations.FrameBodiesReadBack : Prop :=
  (∀ f : Frame, Sys2Proof.Spec.laidOut f.bits f
      ∧ (∀ k, k < Sys2Proof.Spec.unused f.body → (f.bits.extractLsb' 16 96).getLsbD k = false)
      ∧ (Sys2Proof.Spec.wellFormed f.body → readFrame f.bits = some f))
    ∧ (∀ (bits : BodyBits) (f : Frame),
      readFrame bits = some f ↔ Sys2Proof.Spec.laidOut bits f ∧ Sys2Proof.Spec.wellFormed f.body)
    ∧ ((∀ echo : StationSet, echoCheck echo
        = Sys2Proof.Spec.shiftedIn 0x07 0x00 ((List.range 16).map (fun n => !echo.getLsbD n)))
      ∧ echoCheck 0 = 0x24
      ∧ (∀ (x : StationSet) (a : Addr), setHas x a = x.getLsbD a.toNat)
      ∧ ∀ x y : StationSet, setWithin x y = true ↔ ∀ a, setHas x a = true → setHas y a = true)
    ∧ (∀ content : BitVec 90,
      (∀ h : Header, readHeader content = h ↔ content.extractLsb' 84 6 = h.total ∧ content.extractLsb' 52 32 = h.settle
          ∧ content.getLsbD 51 = h.halt ∧ content.extractLsb' 35 16 = h.dropped ∧ content.extractLsb' 19 16 = h.sinceFirst)
      ∧ (∀ f : First, readFirst content = some f ↔ content.extractLsb' 86 4 = f.origin
          ∧ content.extractLsb' 80 6 = f.source ∧ content.extractLsb' 78 2 = Sys2Proof.Spec.severityCode (some f.severity)
          ∧ content.extractLsb' 46 32 = f.settle ∧ content.extractLsb' 14 32 = f.detail ∧ f.source ≤ 32)
      ∧ ∀ e : Entry, readEntry content = some e ↔ content.extractLsb' 86 4 = e.origin
          ∧ content.extractLsb' 80 6 = e.source ∧ content.extractLsb' 78 2 = Sys2Proof.Spec.severityCode (some e.severity)
          ∧ content.extractLsb' 70 8 = e.occurrences ∧ content.extractLsb' 38 32 = e.firstSettle
          ∧ content.extractLsb' 6 32 = e.detail ∧ content.getLsbD 5 = e.absent ∧ e.source ≤ 32 ∧ e.occurrences ≠ 0)

/-- Port transactions read back as their command, and every byte sequence is one. The model's choice: log 23. -/
def Obligations.TransactionsReadBack : Prop :=
  (∀ (i : Instr) (bytes : List Byte), i.wf = true → encodeTransaction i = some bytes → decodeTransaction bytes = i)
    ∧ ∀ bytes : List Byte, encodeTransaction (decodeTransaction bytes) = some bytes ∧ (decodeTransaction bytes).wf = true

/-! ### The chassis copy -/

/-- A settled FAULT coalesces into its entry, or enters a table with room at the end. -/
def Obligations.FaultCoalescesOrEntersTheTable : Prop :=
  ∀ (c : Chassis) (sender : Addr) (r : Report),
    (∀ (pre post : List Entry) (x : Entry), c.table = pre ++ x :: post → x.origin = sender → x.source = r.source →
      (∀ y ∈ pre ++ post, ¬(y.origin = sender ∧ y.source = r.source)) →
      ∃ y, (c.apply sender (.notice (.fault r))).table = pre ++ y :: post
        ∧ y.origin = x.origin ∧ y.source = x.source ∧ y.firstSettle = x.firstSettle ∧ y.absent = x.absent
        ∧ y.occurrences.toNat = min 255 (x.occurrences.toNat + r.occurrences.toNat)
        ∧ y.severity = x.severity.higher r.severity ∧ y.detail = r.detail
        ∧ (c.apply sender (.notice (.fault r))).dropped = c.dropped
        ∧ (c.apply sender (.notice (.fault r))).halt = (c.halt || decide (y.severity = .critical))
        ∧ Sys2Proof.Spec.offered c (c.apply sender (.notice (.fault r))) (c.faultEntry sender r)
        ∧ Sys2Proof.Spec.faultFrame c (c.apply sender (.notice (.fault r))))
    ∧ ((∀ y ∈ c.table, ¬(y.origin = sender ∧ y.source = r.source)) → c.table.length < 32 →
      (c.apply sender (.notice (.fault r))).table
          = c.table ++ [⟨sender, r.source, r.severity, c.settle + 1, r.occurrences, r.detail, false⟩]
        ∧ (c.apply sender (.notice (.fault r))).dropped = c.dropped
        ∧ (c.apply sender (.notice (.fault r))).halt = (c.halt || decide (r.severity = .critical))
        ∧ Sys2Proof.Spec.offered c (c.apply sender (.notice (.fault r))) (c.faultEntry sender r)
        ∧ Sys2Proof.Spec.faultFrame c (c.apply sender (.notice (.fault r))))

/-- A full table evicts the oldest entry of the lowest severity, or drops the arrival. -/
def Obligations.FullTableEvictsOrDrops : Prop :=
  ∀ (c : Chassis) (sender : Addr) (r : Report), c.table.length = 32 →
    (∀ y ∈ c.table, ¬(y.origin = sender ∧ y.source = r.source)) →
    (∀ (pre post : List Entry) (x : Entry), c.table = pre ++ x :: post →
      (∀ y ∈ pre, x.severity.rank < y.severity.rank) → (∀ y ∈ post, x.severity.rank ≤ y.severity.rank) →
      x.severity.rank < r.severity.rank →
      (c.apply sender (.notice (.fault r))).table
          = pre ++ post ++ [⟨sender, r.source, r.severity, c.settle + 1, r.occurrences, r.detail, false⟩]
        ∧ (c.apply sender (.notice (.fault r))).dropped = c.dropped
        ∧ (c.apply sender (.notice (.fault r))).halt = (c.halt || decide (r.severity = .critical)))
    ∧ ((∀ y ∈ c.table, r.severity.rank ≤ y.severity.rank) →
      (c.apply sender (.notice (.fault r))).table = c.table
        ∧ (c.apply sender (.notice (.fault r))).dropped.toNat = min 65535 (c.dropped.toNat + 1)
        ∧ (c.apply sender (.notice (.fault r))).halt = c.halt)
    ∧ Sys2Proof.Spec.offered c (c.apply sender (.notice (.fault r))) (c.faultEntry sender r)
    ∧ Sys2Proof.Spec.faultFrame c (c.apply sender (.notice (.fault r)))

/-- A settled RESOLVE removes its entry; a settled LEAVE makes its sender DEPARTING. -/
def Obligations.ResolveAndLeaveAtTheCopy : Prop :=
  ∀ (c : Chassis) (sender : Addr),
    (∀ source : BitVec 6,
      (c.apply sender (.notice (.resolve source))).table
          = c.table.filter (fun x => decide (¬(x.origin = sender ∧ x.source = source)))
        ∧ (c.apply sender (.notice (.resolve source))).first = c.first
        ∧ (c.apply sender (.notice (.resolve source))).sinceFirst = c.sinceFirst
        ∧ (c.apply sender (.notice (.resolve source))).halt = c.halt
        ∧ (c.apply sender (.notice (.resolve source))).dropped = c.dropped
        ∧ Sys2Proof.Spec.faultFrame c (c.apply sender (.notice (.resolve source))))
    ∧ (c.apply sender (.notice .leave)).table = c.table
    ∧ (c.apply sender (.notice .leave)).settle = c.settle + 1
    ∧ (∀ m, c.record sender = some m → (c.apply sender (.notice .leave)).record sender = some { m with state := .departing })
    ∧ (c.record sender = none → (c.apply sender (.notice .leave)).record sender = none)
    ∧ (∀ a, a ≠ sender → (c.apply sender (.notice .leave)).record a = c.record a)
    ∧ (c.apply sender (.notice .leave)).first = c.first
    ∧ (c.apply sender (.notice .leave)).sinceFirst = c.sinceFirst
    ∧ (c.apply sender (.notice .leave)).halt = c.halt
    ∧ (c.apply sender (.notice .leave)).dropped = c.dropped

/-- A settled CLEAR of scope FIRST is DONE on the matching first record and STALE else. -/
def Obligations.ClearOfTheFirstRecord : Prop :=
  ∀ (c : Chassis) (sender o : Addr) (reference : Word),
    (∀ f, c.first = some f → f.settle = reference →
      c.clearOutcome sender .first o reference = .done
        ∧ c.apply sender (.notice (.clear .first o reference))
          = { c with first := none, sinceFirst := 0, settle := c.settle + 1, level := deriveLevel c.halt c.table })
    ∧ ((∀ f, c.first = some f → f.settle ≠ reference) →
      c.clearOutcome sender .first o reference = .stale
        ∧ c.apply sender (.notice (.clear .first o reference))
          = { c with settle := c.settle + 1, level := deriveLevel c.halt c.table })

/-- A settled CLEAR of scope HALT. -/
def Obligations.ClearOfTheHaltLatch : Prop :=
  ∀ (c : Chassis) (sender o : Addr) (reference : Word),
    ((∃ x ∈ c.table, x.severity = .critical) →
      c.clearOutcome sender .halt o reference = .refused
        ∧ (c.apply sender (.notice (.clear .halt o reference))).halt = c.halt)
    ∧ ((∀ x ∈ c.table, x.severity ≠ .critical) →
      c.clearOutcome sender .halt o reference = .done
        ∧ (c.apply sender (.notice (.clear .halt o reference))).halt = false
        ∧ Sys2Proof.Spec.levelOf false c.table (c.apply sender (.notice (.clear .halt o reference))).level)
    ∧ ((∀ x ∈ c.table, x.severity ≠ .critical) → c.halt = false →
      c.level = deriveLevel c.halt c.table →
      c.apply sender (.notice (.clear .halt o reference)) = { c with settle := c.settle + 1 })
    ∧ (c.apply sender (.notice (.clear .halt o reference))).first = c.first
    ∧ (c.apply sender (.notice (.clear .halt o reference))).sinceFirst = c.sinceFirst
    ∧ (c.apply sender (.notice (.clear .halt o reference))).table = c.table

/-- A settled CLEAR of scope ORIGIN. -/
def Obligations.ClearOfAnOrigin : Prop :=
  ∀ (c : Chassis) (sender n : Addr) (reference : Word),
    (c.record n ≠ none ∨ n = sender →
      c.clearOutcome sender .origin n reference = .refused
        ∧ (c.apply sender (.notice (.clear .origin n reference))).table = c.table)
    ∧ (c.record n = none → n ≠ sender →
      c.clearOutcome sender .origin n reference = .done
        ∧ (c.apply sender (.notice (.clear .origin n reference))).table
          = c.table.filter (fun x => decide (x.origin ≠ n)))
    ∧ (c.apply sender (.notice (.clear .origin n reference))).halt = c.halt
    ∧ (c.halt = true → (c.apply sender (.notice (.clear .origin n reference))).level = .halt)
    ∧ (c.apply sender (.notice (.clear .origin n reference))).first = c.first
    ∧ (c.apply sender (.notice (.clear .origin n reference))).sinceFirst = c.sinceFirst

/-- Applying a settled frame keeps the latch set over CRITICAL entries. -/
def Obligations.AppliedFrameKeepsLatchAndCount : Prop :=
  ∀ (c : Chassis) (sender : Addr) (b : Body),
    ((∀ x ∈ c.table, x.severity = .critical → c.halt = true) →
      (∀ x ∈ (c.apply sender b).table, x.severity = .critical → (c.apply sender b).halt = true)
        ∧ (b.numbered = true → ((c.apply sender b).level = .halt ↔ (c.apply sender b).halt = true)))
    ∧ ((c.first = none → c.sinceFirst = 0) → (c.apply sender b).first = none → (c.apply sender b).sinceFirst = 0)

/-- A settled ROSTER is adopted, creates LOSS entries and marks absence. The model's choice: log 16. -/
def Obligations.RosterReplacesTheRosterAndCreatesLosses : Prop :=
  ∀ (c : Chassis) (sender : Addr) (r : RosterBody) (lost : List Addr),
    lost = allAddrs.filter (fun a => decide (setHas r.members a = false ∧ ∃ m, c.record a = some m ∧ m.state = .full)) →
    (c.apply sender (.roster r)).generation = r.generation
    ∧ (c.apply sender (.roster r)).dropLimit = r.dropLimit
    ∧ (c.apply sender (.roster r)).loss = r.loss
    ∧ (c.apply sender (.roster r)).settle = c.settle + 1
    ∧ (∀ a, (c.apply sender (.roster r)).record a
        = if setHas r.members a then some ⟨if setHas r.newMembers a then .new else .full, 0⟩ else none)
    ∧ (∀ x ∈ (c.apply sender (.roster r)).table, x.absent = !setHas r.members x.origin)
    ∧ (r.loss = none →
        (c.apply sender (.roster r)).table = c.table.map (fun x => { x with absent := !setHas r.members x.origin })
          ∧ (c.apply sender (.roster r)).first = c.first ∧ (c.apply sender (.roster r)).sinceFirst = c.sinceFirst
          ∧ (c.apply sender (.roster r)).halt = c.halt ∧ (c.apply sender (.roster r)).dropped = c.dropped)
    ∧ (∀ sev, r.loss = some sev → ∃ d, Sys2Proof.Spec.lossesTaken sev (c.settle + 1) lost
          { c with
            generation := r.generation
            records := recordsOf (fun a =>
              if setHas r.members a then some ⟨if setHas r.newMembers a then .new else .full, 0⟩ else none)
            dropLimit := r.dropLimit
            loss := r.loss } d
        ∧ c.apply sender (.roster r)
          = { d with
              table := d.table.map (fun x => { x with absent := !setHas r.members x.origin })
              settle := c.settle + 1
              level := (c.apply sender (.roster r)).level })
    ∧ Sys2Proof.Spec.levelOf (c.apply sender (.roster r)).halt (c.apply sender (.roster r)).table
        (c.apply sender (.roster r)).level
    ∧ (∀ sev, r.loss = some sev → c.table.length + lost.length ≤ 32 →
        (∀ x ∈ c.table, x.source = 32 → x.origin ∉ lost) →
        (c.apply sender (.roster r)).table
          = c.table.map (fun x => { x with absent := !setHas r.members x.origin })
            ++ lost.map (fun a => ⟨a, 32, sev, c.settle + 1, 1, 0, true⟩))

/-! ### Supply and RESET -/

/-- R124: a line as watching begins on it, with a qualify time and the level its pin has. -/
def Sys2Proof.Spec.watched (qualifyTime : Byte) (high : Bool) (l : Line) : Line :=
  if high = l.polarity.activeLevel then
    if l.mode = .edge ∨ qualifyTime = 0 then { l with tracker := .held, timer := none }
    else { l with tracker := .qualifying, timer := some qualifyTime }
  else { l with tracker := .inactive, timer := none }

/-- R103: what AUTOJOIN as sampled does to the Roster Controller. -/
def Sys2Proof.Spec.autoJoined (autojoin : Bool) (joinWait : Byte) (c : Ctl) : Ctl :=
  if autojoin then { c with joinPending := true, joinTimer := some joinWait } else c

/-- R148: the state of a local record after a board reset. -/
def Sys2Proof.Spec.keptState : LocalState → LocalState
  | .queued => .unsent
  | .inFlight => .unsent
  | .reported n => .reported n
  | .unsent => .unsent

/-- R178: what a transaction of n bytes has clocked out: bytes of before a reset's edge as they stood; FFh while RESET is
asserted; the stored response. Before the end of power-on, and after a reset in a transaction that began before its end,
any bytes. -/
def Sys2Proof.Spec.clockedOut (s : State) (n : Nat) (out : List Byte) : Prop :=
  out.length = n ∧ ∀ (b : List Byte) (k : Nat), b = s.port.straddle.getD [] → k < n →
    (k < b.length → out[k]? = b[k]?)
    ∧ (b.length ≤ k → s.power.ended = true →
      (s.power.resetLow = true → out[k]? = some 0xFF)
      ∧ (s.power.resetLow = false → s.port.straddle = none → out[k]? = (shiftOut s.port.response n)[k]?))

/-- R150: the port at an edge of RESET or at the end of power-on: with chip select high no transaction is in progress; with
bits clocked since its fall, the transaction in progress takes no command. -/
def Sys2Proof.Spec.cut (s t : State) (clocked : Option Nat) : Prop :=
  (clocked = none → t.port.straddle = none ∧ t.freeCount = s.freeCount)
    ∧ ∀ bits, clocked = some bits → ∃ l, t.port.straddle = some l ∧ l.length = (bits + 7) / 8
      ∧ Sys2Proof.Spec.clockedOut s (bits / 8) (l.take (bits / 8)) ∧ s.freeCount ≤ t.freeCount

/-- The values of every block after power-on. The model's choice: log 6. -/
def Obligations.PowerOnValues : Prop :=
  (∀ s : State, exec .powerOn s = .next { State.reset with freeCount := s.freeCount, pending := s.pending })
    ∧ State.reset.power = ⟨false, false⟩
    ∧ State.reset.items = ⟨10, 20, true, .hold, 0, 3, some .major⟩
    ∧ (∀ n : Fin 32, State.reset.monitor.source n
        = ⟨if n.val < 24 then .off else if n.val < 31 then .major else .minor, 16, false, 0, false⟩)
    ∧ (∀ n : Fin 24, State.reset.monitor.line n = ⟨.edge, .activeLow, .inactive, none⟩)
    ∧ State.reset.log = ⟨none, [], 0, 0⟩
    ∧ State.reset.queue.items = [] ∧ State.reset.queue.loss = 0
    ∧ State.reset.engine.bus = .brokenWait ∧ State.reset.engine.recessive = 0 ∧ State.reset.engine.rx = none
    ∧ State.reset.engine.broken = 0 ∧ State.reset.engine.foreign = 0 ∧ State.reset.engine.stuckRun = 0
    ∧ State.reset.copyValid = false
    ∧ State.reset.chassis.table = [] ∧ State.reset.chassis.settle = 0 ∧ State.reset.chassis.dropped = 0
    ∧ State.reset.chassis.first = none ∧ State.reset.chassis.sinceFirst = 0 ∧ State.reset.chassis.halt = false
    ∧ State.reset.chassis.level = .quiet ∧ State.reset.chassis.generation = 0
    ∧ (∀ a : Addr, State.reset.chassis.record a = none)
    ∧ State.reset.ctl.station = .detached ∧ State.reset.ctl.duties = none ∧ State.reset.ctl.admission = none
    ∧ State.reset.ctl.joinTimer = none ∧ State.reset.ctl.attempts = 0 ∧ State.reset.ctl.heardTraffic = false
    ∧ State.reset.ctl.heardList = [] ∧ State.reset.ctl.cause = .none ∧ State.reset.ctl.joinPending = false
    ∧ State.reset.ctl.joinOwed = false ∧ State.reset.ctl.transfer = none ∧ State.reset.ctl.adriftFrames = 0
    ∧ State.reset.ctl.adriftLeaving = false
    ∧ State.reset.outputs = ⟨.quiet, .hold, .quiet, false, false, false⟩
    ∧ State.reset.alerts = ⟨0, 0, false⟩
    ∧ State.reset.port.response = none ∧ State.reset.port.count = 0 ∧ State.reset.port.clear = none
    ∧ State.reset.port.straddle = none

/-- The Local Fault Log at power-on and at board reset. -/
def Obligations.LocalLogAtTheResets : Prop :=
  ∀ s : State,
    (∃ t, exec .powerOn s = .next t ∧ t.log.first = none ∧ t.log.next = [] ∧ t.log.overflow = 0 ∧ t.log.counter = 0
      ∧ ∀ (source : BitVec 5) (severity : Severity) (detail : Word), ∃ r,
          (t.log.take source severity detail).log.first = some r ∧ r.number = 1)
    ∧ ∀ moment : Moment, s.power.resetLow = false → s.nothingDue →
      ∃ t, exec (.resetAsserted moment) s = .next t
        ∧ t.log.first = s.log.first.map (fun r => { r with state := Sys2Proof.Spec.keptState r.state })
        ∧ t.log.next = s.log.next.map (fun r => { r with state := Sys2Proof.Spec.keptState r.state })
        ∧ t.log.overflow = s.log.overflow ∧ t.log.counter = s.log.counter

/-- The assertion of RESET puts every block at its board reset value. The model's choice: log 19, 34, 37, 40. -/
def Obligations.BoardReset : Prop :=
  ∀ (moment : Moment) (s : State), s.power.resetLow = false → s.nothingDue →
    ∃ t, exec (.resetAsserted moment) s = .next t
      ∧ t.power = ⟨s.power.ended, true⟩ ∧ t.straps = s.straps ∧ t.items = State.reset.items
      ∧ t.monitor.fin = s.monitor.fin
      ∧ (∀ n : Fin 32, t.monitor.source n
          = ⟨if n.val < 24 then .off else if n.val < 31 then .major else .minor, 16, false,
             (s.monitor.source n).counter, (s.monitor.source n).flag⟩)
      ∧ (∀ n : Fin 24, t.monitor.line n = ⟨.edge, .activeLow, .inactive, none⟩)
      ∧ t.queue.items = [] ∧ t.queue.loss = s.queue.loss
      ∧ t.engine.bus = .brokenWait ∧ t.engine.recessive = 0 ∧ t.engine.stuckRun = 0 ∧ t.engine.sent = none
      ∧ t.engine.rx = none ∧ t.engine.broken = 0 ∧ t.engine.foreign = 0
      ∧ (t.engine.breaking = true ↔ s.engine.sent ≠ none ∧ s.engine.phase = .tail ∧ 140 ≤ moment.position
          ∧ moment.position ≤ 163)
      ∧ t.copyValid = false ∧ t.chassis = State.reset.chassis
      ∧ t.ctl.station = .detached ∧ t.ctl.duties = none ∧ t.ctl.admission = none ∧ t.ctl.joinTimer = none
      ∧ t.ctl.joinPending = false ∧ t.ctl.joinOwed = false ∧ t.ctl.attempts = 0 ∧ t.ctl.heardTraffic = false
      ∧ t.ctl.heardList = [] ∧ t.ctl.cause = .none ∧ t.ctl.transfer = none ∧ t.ctl.adriftFrames = 0
      ∧ t.ctl.adriftLeaving = false
      ∧ t.outputs = ⟨s.outputs.lastKnown, .hold, s.outputs.lastKnown, decide (s.outputs.lastKnown ≠ .quiet),
          decide (s.outputs.lastKnown = .contain ∨ s.outputs.lastKnown = .halt), decide (s.outputs.lastKnown = .halt)⟩
      ∧ t.alerts = ⟨0, 0, false⟩ ∧ t.port.response = none ∧ t.port.count = 0 ∧ t.port.clear = none
      ∧ Sys2Proof.Spec.cut s t moment.clocked ∧ t.pending = s.pending

/-- The end of power-on and the release of RESET sample straps and lines. The model's choice: log 18, 34. -/
def Obligations.EndOfPowerOnAndReleaseSampleThePins : Prop :=
  (∀ (addr : Addr) (rate : BitVec 2) (autojoin : Bool) (pins : Pins) (s : State), s.power.ended = false →
      ∃ t, exec (.endOfPowerOn addr rate autojoin pins) s = .next t
        ∧ t.power = ⟨true, s.power.resetLow⟩ ∧ t.straps = ⟨addr, rate, autojoin⟩ ∧ t.monitor.fin = pins.fin
        ∧ (s.power.resetLow = false →
            (∀ n : Fin 24, t.monitor.line n
              = Sys2Proof.Spec.watched s.items.qualifyTime (pins.fin.getLsbD n.val) (s.monitor.line n))
            ∧ t.ctl = Sys2Proof.Spec.autoJoined autojoin s.items.joinWait s.ctl)
        ∧ (s.power.resetLow = true → t.monitor.lines = s.monitor.lines ∧ t.ctl = s.ctl)
        ∧ t.items = s.items ∧ t.engine = s.engine ∧ t.chassis = s.chassis ∧ t.outputs = s.outputs
        ∧ t.port = { s.port with straddle := t.port.straddle } ∧ Sys2Proof.Spec.cut s t pins.clocked
        ∧ (s.items.qualifyTime ≠ 0 →
            t.log = s.log ∧ t.queue = s.queue ∧ t.alerts = s.alerts ∧ t.monitor.sources = s.monitor.sources)
        ∧ t.alerts.mask = s.alerts.mask ∧ t.pending = s.pending)
    ∧ (∀ (rate : BitVec 2) (autojoin : Bool) (pins : Pins) (s : State), s.power.resetLow = true →
      ∃ t, exec (.resetReleased rate autojoin pins) s = .next t
        ∧ t.power = ⟨s.power.ended, false⟩
        ∧ (s.power.ended = true →
            t.straps = ⟨s.straps.addr, rate, autojoin⟩ ∧ t.monitor.fin = pins.fin
            ∧ (∀ n : Fin 24, t.monitor.line n
                = Sys2Proof.Spec.watched s.items.qualifyTime (pins.fin.getLsbD n.val) (s.monitor.line n))
            ∧ t.ctl = Sys2Proof.Spec.autoJoined autojoin s.items.joinWait s.ctl)
        ∧ (s.power.ended = false → t = ((s.withPower ⟨false, false⟩).withPort t.port).withFree t.freeCount)
        ∧ t.items = s.items ∧ t.engine = s.engine ∧ t.chassis = s.chassis ∧ t.outputs = s.outputs
        ∧ t.port = { s.port with straddle := t.port.straddle } ∧ Sys2Proof.Spec.cut s t pins.clocked
        ∧ (s.items.qualifyTime ≠ 0 →
            t.log = s.log ∧ t.queue = s.queue ∧ t.alerts = s.alerts ∧ t.monitor.sources = s.monitor.sources)
        ∧ t.alerts.mask = s.alerts.mask ∧ t.pending = s.pending)

/-! ### The bus up to the ack window -/

/-- R92: the Roster Controller once the arbiter has asked it: the roster retry count is 0 when nothing is owed. -/
def Sys2Proof.Spec.asked (s : State) : Ctl :=
  match s.ctl.duties with
  | some d => if s.rosterOwed.isNone then { s.ctl with duties := some { d with retries := 0 } } else s.ctl
  | none => s.ctl

/-- R43, R47, R58: the Frame Engine at a start bit. -/
def Sys2Proof.Spec.started (e : Engine) (sent : Option Sent) : Engine :=
  { bus := if sent.isSome then .arbitrating else .receiving, recessive := 0, stuckRun := 0, phase := .body, sent := sent,
    lostAtSender := false, breaking := false, rx := none, broken := e.broken, foreign := e.foreign }

/-- BUS_IDLE, and a start bit of another station. The model's choice: log 29. -/
def Obligations.BusIdleAndAnothersStartBit : Prop :=
  ∀ s : State, s.ready →
    ((s.engine.breaking = false → s.engine.bus = .brokenWait ∨ s.engine.phase = .gap →
      exec .busIdle s = .next ((s.withCtl (Sys2Proof.Spec.asked s)).withEngine
        { s.engine with bus := .idle, recessive := 11, stuckRun := 0, phase := .none, sent := none }))
    ∧ (s.engine.bus = .idle → s.ctl.station ≠ .adrift →
      exec (.frameStart true) s
        = .next ((s.withCtl (Sys2Proof.Spec.asked s)).withEngine (Sys2Proof.Spec.started s.engine none)))
    ∧ (s.engine.bus = .idle → s.ctl.station = .adrift → s.legal →
      exec (.frameStart true) s
        = .next ((s.withCtl { s.ctl with joinTimer := some s.items.joinWait }).withEngine
            (Sys2Proof.Spec.started s.engine none))))

/-- The station's own start bit takes the frame that it offers. The model's choice: log 4, 29. -/
def Obligations.StartBitOfAnOfferedFrame : Prop :=
  (∀ s : State, s.ready → s.engine.bus = .idle → s.ctl.station = .member ∨ s.ctl.station = .leaving →
      s.rosterOwed = none →
      (∀ h, s.queue.inFlight = some h →
        exec (.frameStart false) s = .next ((s.withCtl (Sys2Proof.Spec.asked s)).withEngine
          (Sys2Proof.Spec.started s.engine
            (some ⟨.queue, (Frame.mk (BitVec.ofNat 3 h.urgency) s.straps.addr (.notice h.item.notice)).bits⟩))))
      ∧ (∀ i rest, s.queue.inFlight = none → s.queue.waiting = i :: rest →
        ∃ t, exec (.frameStart false) s = .next t
          ∧ t.engine = Sys2Proof.Spec.started s.engine
              (some ⟨.queue, (Frame.mk (BitVec.ofNat 3 i.notice.urgency) s.straps.addr (.notice i.notice)).bits⟩)
          ∧ t.queue = { s.queue with inFlight := some ⟨i, 0, 0, i.notice.urgency, false⟩, waiting := rest }
          ∧ t.ctl = Sys2Proof.Spec.asked s
          ∧ (∀ r, i.notice = .fault r → i.linked = true → t.log = s.log.setState r.source .inFlight)
          ∧ ((∀ r, i.notice ≠ .fault r) ∨ i.linked = false → t.log = s.log)
          ∧ t.monitor = s.monitor ∧ t.chassis = s.chassis ∧ t.outputs = s.outputs ∧ t.alerts = s.alerts
          ∧ t.port = s.port ∧ t.items = s.items))
    ∧ (∀ s : State, s.ready → s.engine.bus = .idle →
      (s.ctl.station = .member ∨ s.ctl.station = .leaving → ∀ b, s.rosterOwed = some b →
        exec (.frameStart false) s
          = .next (s.withEngine (Sys2Proof.Spec.started s.engine (some ⟨.roster, (Frame.mk 0 s.straps.addr b).bits⟩))))
      ∧ (s.ctl.station = .joining → s.ctl.joinOwed = true →
        exec (.frameStart false) s = .next ((s.withCtl (Sys2Proof.Spec.asked s)).withEngine
          (Sys2Proof.Spec.started s.engine (some ⟨.join, (Frame.mk 5 s.straps.addr .join).bits⟩))))
      ∧ (s.ctl.station = .transfer ∨ s.ctl.station = .detached ∨ s.ctl.station = .adrift
          ∨ (s.ctl.station = .joining ∧ s.ctl.joinOwed = false)
          ∨ ((s.ctl.station = .member ∨ s.ctl.station = .leaving) ∧ s.rosterOwed = none ∧ s.queue.items = []) →
        exec (.frameStart false) s = .next (s.withCtl (Sys2Proof.Spec.asked s))))

/-- An arbitration loss makes the station receive, and the eighth ages the head. -/
def Obligations.ArbitrationLossAndAging : Prop :=
  ∀ s : State, s.ready → s.engine.bus = .arbitrating → s.engine.phase = .body → s.engine.breaking = false →
    ∀ (atUrgency : Bool) (x : Sent), s.engine.sent = some x →
    (x.path ≠ .queue →
      exec (.arbitrationLoss atUrgency) s = .next (s.withEngine
        { s.engine with bus := .receiving, sent := none, lostAtSender := !atUrgency }))
    ∧ (x.path = .queue → ∀ h, s.queue.inFlight = some h → h.losses < 7 →
      exec (.arbitrationLoss atUrgency) s = .next ((s.withEngine
        { s.engine with bus := .receiving, sent := none, lostAtSender := !atUrgency }).withQueue
          { s.queue with inFlight := some { h with losses := h.losses + 1 } }))
    ∧ (x.path = .queue → ∀ h, s.queue.inFlight = some h → h.losses = 7 →
      ∃ t, exec (.arbitrationLoss atUrgency) s = .next t
        ∧ exec .headAging t = .next ((s.withEngine
          { s.engine with bus := .receiving, sent := none, lostAtSender := !atUrgency }).withQueue
            { s.queue with
              inFlight := some
                { h with losses := 0, urgency := if 1 < h.urgency then h.urgency - 1 else h.urgency } }))

/-- R45: the station breaks the frame on the bus: already, or since it reads back other bits than it drove. -/
def Sys2Proof.Spec.breaks (e : Engine) (bits : BodyBits) : Bool :=
  e.breaking || e.sent.any (fun x => decide (x.bits ≠ bits))

/-- R47: the Frame Engine with a body in its receive buffer, the ack window ahead. -/
def Sys2Proof.Spec.received (e : Engine) (bits : BodyBits) : Engine :=
  { e with
    bus := if e.bus = .arbitrating ∧ Sys2Proof.Spec.breaks e bits = false then .transmitting else e.bus
    phase := .tail
    breaking := Sys2Proof.Spec.breaks e bits
    rx := some bits }

/-- The station reads the body of the frame on the bus: another's, or its own, which it may be breaking. -/
def Sys2Proof.Spec.reading (s : State) : Prop := s.ready ∧ s.engine.phase = .body

/-- What a body does when it is read: member, foreign, duplicate, JOIN. The model's choice: log 1, 20, 43. -/
def Obligations.BodyReceived : Prop :=
  (∀ (s : State) (bits : BodyBits), Sys2Proof.Spec.reading s →
      (readFrame bits = none → exec (.bodyReceived bits) s = .next (s.withEngine (Sys2Proof.Spec.received s.engine bits)))
      ∧ (∀ f, readFrame bits = some f → f.body ≠ .join → s.ctl.station.inStep = true → s.chassis.record f.sender ≠ none →
        exec (.bodyReceived bits) s = .next (s.withEngine (Sys2Proof.Spec.received s.engine bits))))
    ∧ (∀ (s : State) (bits : BodyBits) (f : Frame), Sys2Proof.Spec.reading s → readFrame bits = some f →
      (s.ctl.station.inStep = true → f.body ≠ .join → s.chassis.record f.sender = none →
        (setHas s.engine.foreign f.sender = true →
          exec (.bodyReceived bits) s = .next (s.withEngine (Sys2Proof.Spec.received s.engine bits)))
        ∧ (setHas s.engine.foreign f.sender = false →
          exec (.bodyReceived bits) s
            = .next (((s.withEngine { Sys2Proof.Spec.received s.engine bits with
                foreign := s.engine.foreign ||| setSingle f.sender }).setCause .busFault).assertSource 30
                  (0x00000100 + f.sender.setWidth 32))))
      ∧ (s.ctl.station = .detached ∨ s.ctl.station = .adrift → f.sender = s.straps.addr → s.engine.sent = none →
        s.engine.lostAtSender = false → s.legal →
          exec (.bodyReceived bits) s
            = .next (((s.withEngine (Sys2Proof.Spec.received s.engine bits)).setCause .busFault).assertSource 30 0x00000003))
      ∧ (s.ctl.station = .detached ∨ s.ctl.station = .adrift →
        f.sender ≠ s.straps.addr ∨ s.engine.sent ≠ none ∨ s.engine.lostAtSender = true → s.legal →
          exec (.bodyReceived bits) s = .next (s.withEngine (Sys2Proof.Spec.received s.engine bits)))
      ∧ (s.ctl.station.inStep = true → f.body = .join → s.ctl.duties = none →
          exec (.bodyReceived bits) s = .next (s.withEngine (Sys2Proof.Spec.received s.engine bits))))
    ∧ (∀ (s : State) (bits : BodyBits) (f : Frame), Sys2Proof.Spec.reading s → readFrame bits = some f →
      (s.ctl.station = .joining → s.legal →
        (f.sender = s.straps.addr → s.engine.sent = none → s.engine.lostAtSender = false →
          exec (.bodyReceived bits) s
            = .next ((((s.withEngine (Sys2Proof.Spec.received s.engine bits)).setCause .busFault).assertSource 30
                0x00000003).withCtl { s.ctl with heardTraffic := true }))
        ∧ (f.sender = s.straps.addr → s.engine.sent ≠ none ∨ s.engine.lostAtSender = true →
          exec (.bodyReceived bits) s = .next (s.withEngine (Sys2Proof.Spec.received s.engine bits)))
        ∧ (f.sender ≠ s.straps.addr →
          exec (.bodyReceived bits) s = .next ((s.withEngine (Sys2Proof.Spec.received s.engine bits)).withCtl
            { s.ctl with
              heardTraffic := s.ctl.heardTraffic || decide (¬(f.body = .join ∧ s.straps.addr < f.sender))
              heardList := if f.body = .join ∧ s.straps.addr < f.sender ∧ f.sender ∉ s.ctl.heardList
                then s.ctl.heardList ++ [f.sender] else s.ctl.heardList })))
      ∧ (∀ d, s.ctl.station.inStep = true → s.ctl.duties = some d → f.body = .join →
        exec (.bodyReceived bits) s = .next ((s.withEngine (Sys2Proof.Spec.received s.engine bits)).withCtl
          { s.ctl with duties := some { d with
            list := if f.sender ≠ s.straps.addr ∧ f.sender ∉ d.list then d.list ++ [f.sender] else d.list } })))

/-- When the station drives its own ack slot. The model's choice: log 22. -/
def Obligations.AckSlotDriven : Prop :=
  ∀ s : State, s.drivesAck = true ↔
    s.operating = true ∧ s.engine.phase = .tail ∧ s.engine.breaking = false
      ∧ ∃ (bits : BodyBits) (f : Frame), s.engine.rx = some bits ∧ readFrame bits = some f
        ∧ (((s.ctl.station = .member ∨ s.ctl.station = .leaving ∨ s.ctl.station = .transfer)
              ∧ f.body ≠ .join ∧ s.chassis.record f.sender ≠ none)
            ∨ (s.ctl.station = .joining ∧ ∃ r, f.body = .roster r ∧ r.admitted = some s.straps.addr))

/-! ### Sources, local records and the notice queue -/

/-- One more, staying at 255. -/
def Sys2Proof.Spec.bump (b : Byte) : Byte := if b = 255 then 255 else b + 1

/-- An assertion of a source by its class. -/
def Obligations.AssertionsByClass : Prop :=
  (∀ (s : State) (n : Fin 32) (detail : Word) (x : Source), s.monitor.source n = x →
    (x.cls = .off → s.assertSource n detail = s)
    ∧ (x.cls = .count → x.threshold ≤ Sys2Proof.Spec.bump x.counter → x.flag = false →
        s.assertSource n detail = (s.withMonitor (s.monitor.setSource n
          { x with counter := Sys2Proof.Spec.bump x.counter, flag := true })).raiseFault n .minor detail)
    ∧ (x.cls = .count → Sys2Proof.Spec.bump x.counter < x.threshold ∨ x.flag = true →
        s.assertSource n detail
          = s.withMonitor (s.monitor.setSource n { x with counter := Sys2Proof.Spec.bump x.counter }))
    ∧ ∀ severity : Severity,
        (x.cls = .minor ∧ severity = .minor) ∨ (x.cls = .major ∧ severity = .major)
          ∨ (x.cls = .critical ∧ severity = .critical) →
        (x.latched = false →
          s.assertSource n detail = (s.withMonitor (s.monitor.setSource n
            { x with counter := Sys2Proof.Spec.bump x.counter, latched := true })).raiseFault n severity detail)
        ∧ (x.latched = true →
          s.assertSource n detail
            = s.withMonitor (s.monitor.setSource n { x with counter := Sys2Proof.Spec.bump x.counter })))
    ∧ ∀ (m : Monitor) (n k : Fin 32) (x : Source),
        (m.setSource n x).source k = (if k = n then x else m.source k)
          ∧ (m.setSource n x).lines = m.lines ∧ (m.setSource n x).fin = m.fin

/-- Where a raised fault stands in the Local Fault Log, and the notice it gives. -/
def Obligations.RaisedFaultsInTheLocalLog : Prop :=
  ∀ (l : Log) (source : BitVec 5) (severity : Severity) (detail : Word) (next : BitVec 16) (fresh : Record),
    next = (if l.counter = 0xFFFF then 1 else l.counter + 1) →
    fresh = ⟨next, source, severity, 1, detail, .queued⟩ →
    (l.first = none →
      l.take source severity detail
        = ⟨{ l with first := some fresh, counter := next }, ⟨source.setWidth 6, severity, 1, detail, next⟩, true, true⟩)
    ∧ (l.first ≠ none → (∀ x ∈ l.records, x.source ≠ source) → l.next.length < 8 →
      l.take source severity detail
        = ⟨{ l with next := l.next ++ [fresh], counter := next }, ⟨source.setWidth 6, severity, 1, detail, next⟩, true, false⟩)
    ∧ (l.first ≠ none → (∀ x ∈ l.records, x.source ≠ source) → 8 ≤ l.next.length →
      l.take source severity detail
        = ⟨{ l with overflow := Sys2Proof.Spec.bump l.overflow }, ⟨source.setWidth 6, severity, 1, detail, 0⟩, false, false⟩)
    ∧ (l.first ≠ none → ∀ (pre post : List Record) (x : Record), l.records = pre ++ x :: post → x.source = source →
      (∀ y ∈ pre ++ post, y.source ≠ source) →
      ∃ y t, l.take source severity detail = t
        ∧ y = { x with severity := x.severity.higher severity, occurrences := Sys2Proof.Spec.bump x.occurrences, detail := detail }
        ∧ t.log.records = pre ++ y :: post ∧ t.log.next.length = l.next.length
        ∧ t.log.counter = l.counter ∧ t.log.overflow = l.overflow
        ∧ t.linked = true ∧ t.firstWritten = false
        ∧ (x.state = .unsent → t.report = ⟨source.setWidth 6, y.severity, y.occurrences, detail, x.number⟩)
        ∧ (x.state ≠ .unsent → t.report = ⟨source.setWidth 6, severity, 1, detail, x.number⟩))

/-- R61: an item stands ahead of another. -/
def Sys2Proof.Spec.before (a b : Item) : Prop :=
  a.notice.urgency < b.notice.urgency ∨ (a.notice.urgency = b.notice.urgency ∧ a.age < b.age)

/-- R61, R62: one list of waiting items is another with an item at the place its base urgency and age give. -/
def Sys2Proof.Spec.placed (i : Item) (l m : List Item) : Prop :=
  ∃ pre post, l = pre ++ post ∧ m = pre ++ i :: post ∧ (∀ x ∈ pre, ¬Sys2Proof.Spec.before i x)
    ∧ ∀ x rest, post = x :: rest → Sys2Proof.Spec.before i x

/-- R64: an item after a newer notice has taken the link to the record of the source. -/
def Sys2Proof.Spec.relinked (source : BitVec 6) (linked : Bool) (i : Item) : Item :=
  if linked = true ∧ i.notice.isFault source = true then { i with linked := false } else i

/-- R64, R65: the waiting items that an arriving FAULT for the source meets. -/
def Sys2Proof.Spec.met (q : Queue) (source : BitVec 6) (linked : Bool) : List Item :=
  (q.waiting.filter (fun i => decide (i.notice ≠ .resolve source))).map (Sys2Proof.Spec.relinked source linked)

/-- R64: the item in flight when a FAULT for the source has arrived. -/
def Sys2Proof.Spec.metHead (q : Queue) (source : BitVec 6) (linked : Bool) : Option Head :=
  q.inFlight.map (fun h => { h with item := Sys2Proof.Spec.relinked source linked h.item })

/-- A notice in the queue: placed, merged, displacing or refused. -/
def Obligations.FaultsInTheQueue : Prop :=
  (∀ (q : Queue) (r : Report) (linked : Bool),
      ((∀ i ∈ q.waiting, i.notice.isFault r.source = false) →
        (Sys2Proof.Spec.met q r.source linked).length + q.inFlight.toList.length < 8 →
        ∃ w, Sys2Proof.Spec.placed ⟨.fault r, linked, q.nextAge⟩ (Sys2Proof.Spec.met q r.source linked) w
          ∧ q.offerFault r linked
            = ⟨{ q with inFlight := Sys2Proof.Spec.metHead q r.source linked, waiting := w, nextAge := q.nextAge + 1 }, true, none⟩)
      ∧ ((∀ i ∈ q.waiting, i.notice.isFault r.source = false) →
        q.offerFault r linked
          = ({ q with
               inFlight := Sys2Proof.Spec.metHead q r.source linked
               waiting := Sys2Proof.Spec.met q r.source linked } : Queue).insert (.fault r) linked)
      ∧ ∀ (pre post : List Item) (old : Item) (older : Report),
          Sys2Proof.Spec.met q r.source linked = pre ++ old :: post → old.notice = .fault older → older.source = r.source →
          (∀ i ∈ pre ++ post, i.notice.isFault r.source = false) →
          ∃ (w : List Item) (occurrences : Byte),
            occurrences.toNat = min 255 (older.occurrences.toNat + r.occurrences.toNat)
            ∧ Sys2Proof.Spec.placed
                ⟨.fault ⟨r.source, older.severity.higher r.severity, occurrences, r.detail,
                  if linked then r.number else older.number⟩, linked || old.linked, old.age⟩ (pre ++ post) w
            ∧ q.offerFault r linked
              = ⟨{ q with inFlight := Sys2Proof.Spec.metHead q r.source linked, waiting := w }, true, none⟩)
    ∧ ((∀ (q : Queue) (n : Notice) (linked : Bool),
      (q.count < 8 →
        ∃ w, Sys2Proof.Spec.placed ⟨n, linked, q.nextAge⟩ q.waiting w
          ∧ q.insert n linked = ⟨{ q with waiting := w, nextAge := q.nextAge + 1 }, true, none⟩)
      ∧ ∀ (l : List Item) (last : Item), 8 ≤ q.count → q.waiting = l ++ [last] → (∀ x ∈ l, Sys2Proof.Spec.before x last) →
          (n.urgency < last.notice.urgency →
            ∃ w, Sys2Proof.Spec.placed ⟨n, linked, q.nextAge⟩ l w
              ∧ q.insert n linked = ⟨{ q with waiting := w, nextAge := q.nextAge + 1 }, true, some last⟩)
          ∧ (last.notice.urgency ≤ n.urgency → q.insert n linked = ⟨q, false, none⟩))
      ∧ (∀ (scope : Scope) (origin : Addr) (reference : Word), (Notice.clear scope origin reference).urgency = 1)
      ∧ (∀ r : Report, r.severity = .critical → (Notice.fault r).urgency = 1)
      ∧ (∀ r : Report, r.severity = .major → (Notice.fault r).urgency = 2)
      ∧ (∀ r : Report, r.severity = .minor → (Notice.fault r).urgency = 3)
      ∧ (∀ source : BitVec 6, (Notice.resolve source).urgency = 3)
      ∧ Notice.leave.urgency = 4)

/-- A head that returns to waiting takes its place, or meets the items of its source. The model's choice: log 10, 35.
-/
def Obligations.ReturnedHeadMeetsItsSource : Prop :=
  (∀ (q : Queue) (h : Head), q.inFlight = some h →
      ((∀ n, h.item.notice.isFault n = false) → (∀ n, h.item.notice.isResolve n = false) →
        ∃ w, Sys2Proof.Spec.placed h.item q.waiting w ∧ q.returnHead = { q with inFlight := none, waiting := w })
      ∧ (∀ older : Report, h.item.notice = .fault older →
        ((∀ i ∈ q.waiting, i.notice.isFault older.source = false) →
          ∃ w, Sys2Proof.Spec.placed h.item q.waiting w ∧ q.returnHead = { q with inFlight := none, waiting := w })
        ∧ ∀ (pre post : List Item) (x : Item) (younger : Report), q.waiting = pre ++ x :: post →
            x.notice = .fault younger → younger.source = older.source →
            (∀ i ∈ pre ++ post, i.notice.isFault older.source = false) →
            ∃ (w : List Item) (occurrences : Byte),
              occurrences.toNat = min 255 (older.occurrences.toNat + younger.occurrences.toNat)
              ∧ Sys2Proof.Spec.placed
                  ⟨.fault ⟨older.source, older.severity.higher younger.severity, occurrences, younger.detail,
                    if x.linked then younger.number else older.number⟩, x.linked || h.item.linked, h.item.age⟩ (pre ++ post) w
              ∧ q.returnHead = { q with inFlight := none, waiting := w })
      ∧ ∀ source : BitVec 6, h.item.notice = .resolve source →
          ((∃ i ∈ q.waiting, i.notice.isFault source = true) → q.returnHead = { q with inFlight := none })
          ∧ ((∀ i ∈ q.waiting, i.notice.isFault source = false) →
            ∃ w, Sys2Proof.Spec.placed h.item (q.waiting.filter (fun i => decide (i.notice ≠ .resolve source))) w
              ∧ q.returnHead = { q with inFlight := none, waiting := w }))
    ∧ (∀ (q : Queue) (h : Head), q.inFlight = some h →
      ((∀ n, h.item.notice.isFault n = false) →
        ∃ w, Sys2Proof.Spec.placed h.item q.waiting w ∧ q.retryHead = { q with inFlight := none, waiting := w })
      ∧ (∀ r : Report, h.item.notice = .fault r → q.retryHead = q.returnHead))

/-! ### The end of a frame -/

/-- The station runs, and a frame whose end mark it has not read is on the bus. -/
def Sys2Proof.Spec.ending (s : State) : Prop := s.ready ∧ (s.engine.phase = .body ∨ s.engine.phase = .tail)

/-- R45, R50: the frame ends broken at this station. -/
def Sys2Proof.Spec.broken (s : State) (tail : Tail) : Prop :=
  tail.endDominant = true ∨ s.engine.breaking = true ∨ (tail.echo = 0 ∧ tail.check = 0xFF)
    ∨ (s.engine.sent ≠ none ∧ ¬(tail.check = echoCheck tail.echo ∧ tail.echo = tail.ack))

/-- R50, R51: the frame ends complete with a good echo check and an echo equal to the station's own reading. -/
def Sys2Proof.Spec.agreed (s : State) (tail : Tail) : Prop :=
  Sys2Proof.Spec.ending s ∧ s.engine.breaking = false ∧ tail.endDominant = false
    ∧ tail.check = echoCheck tail.echo ∧ tail.echo = tail.ack

/-- R47: the station has read the frame's body good. -/
def Sys2Proof.Spec.heard (s : State) (f : Frame) : Prop := ∃ bits, s.engine.rx = some bits ∧ readFrame bits = some f

/-- R41, R46: the Frame Engine after the end mark of a complete frame. -/
def Sys2Proof.Spec.ended (e : Engine) : Engine :=
  { e with recessive := 1, stuckRun := 0, phase := .gap, sent := none, broken := if e.sent.isSome then 0 else e.broken }

/-- R46, R50: the Frame Engine after a broken frame. -/
def Sys2Proof.Spec.brokenOff (e : Engine) : Engine :=
  { e with bus := .brokenWait, recessive := 0, phase := .none, sent := none, breaking := false,
           broken := if e.sent.isSome then e.broken + 1 else e.broken }

/-- R71, R72: a head after a transmission that did not settle. -/
def Sys2Proof.Spec.spent (h : Head) : Head :=
  { h with transmissions := h.transmissions + 1, losses := 0, urgency := h.item.notice.urgency }

/-- R55: the copy after an echo is counted. -/
def Sys2Proof.Spec.counted (c : Chassis) (echo : StationSet) : Chassis :=
  if echo &&& c.map = 0 then c
  else { c with records := recordsOf (fun a => (c.record a).map (fun m =>
    { m with miss := if setHas echo a then 0 else if m.miss = 15 then 15 else m.miss + 1 })) }

/-- R55: the copy after an echo in which every member is acknowledged. -/
def Sys2Proof.Spec.heardAll (c : Chassis) : Chassis :=
  { c with records := recordsOf (fun a => (c.record a).map (fun m => { m with miss := 0 })) }

/-- R84, R85: the duties a station has with a copy. -/
def Sys2Proof.Spec.role (c : Chassis) (self : Addr) (d : Option Duties) : Option Duties :=
  if c.rosterStation = some self then some (d.getD ⟨[], none, 0⟩) else none

/-- Transmission faults break the frame, what a broken frame leaves, and where a break ends. The model's choice: log
4, 5, 20, 39, 43. -/
def Obligations.BrokenFramesAndTransmissionFaults : Prop :=
  (∀ s : State, s.ready → s.engine.breaking = false →
      (s.engine.bus = .arbitrating ∨ s.engine.bus = .transmitting → s.engine.phase = .body ∨ s.engine.phase = .tail →
        exec .transmissionFault s = .next (s.withEngine { s.engine with breaking := true }))
      ∧ (∀ (x : Sent) (bits : BodyBits), s.engine.phase = .body → s.engine.sent = some x → x.bits ≠ bits →
        ∃ t, exec (.bodyReceived bits) s = .next t
          ∧ t.engine = { s.engine with phase := .tail, breaking := true, rx := some bits, foreign := t.engine.foreign }))
    ∧ (∀ (s : State) (tail : Tail), Sys2Proof.Spec.ending s → Sys2Proof.Spec.broken s tail →
      (s.engine.sent = none → exec (.frameEnd tail) s = .next (s.withEngine (Sys2Proof.Spec.brokenOff s.engine)))
      ∧ ∀ x : Sent, s.engine.sent = some x →
          (x.path = .join → exec (.frameEnd tail) s = .next (s.withEngine (Sys2Proof.Spec.brokenOff s.engine)))
          ∧ (x.path = .queue → ∀ h, s.queue.inFlight = some h →
            exec (.frameEnd tail) s = .next ((s.withEngine (Sys2Proof.Spec.brokenOff s.engine)).withQueue
              { s.queue with inFlight := some (Sys2Proof.Spec.spent h) }))
          ∧ (x.path = .roster → ∀ d, s.ctl.duties = some d →
            exec (.frameEnd tail) s = .next ((s.withEngine (Sys2Proof.Spec.brokenOff s.engine)).withCtl
              { s.ctl with duties := some { d with retries := d.retries + 1 } })))
    ∧ ((∀ (s : State) (bits : BodyBits), s.ready → s.engine.breaking = true → s.engine.phase = .body →
      ∃ t, exec (.bodyReceived bits) s = .next t
        ∧ t.engine = { s.engine with phase := .tail, rx := some bits, foreign := t.engine.foreign })
      ∧ ∀ (s : State) (tail : Tail), s.nothingDue →
        s.operating = false ∨ s.engine.phase = .none ∨ s.engine.phase = .gap →
        (s.engine.breaking = true → exec (.frameEnd tail) s = .next (s.withEngine { s.engine with breaking := false }))
        ∧ (s.engine.breaking = false → exec (.frameEnd tail) s = .next s))

/-- The causes of loss of step at a complete frame of another station. The model's choice: log 14, 21, 32. -/
def Obligations.LossOfStepCauses : Prop :=
  ∀ (s : State) (tail : Tail), Sys2Proof.Spec.ending s → ¬Sys2Proof.Spec.broken s tail → s.engine.sent = none →
    s.ctl.station.inStep = true → ∀ lost : Word → State,
    (∀ code, lost code = (s.toAdrift code).withEngine (Sys2Proof.Spec.ended { s.engine with foreign := 0 })) →
    (tail.check ≠ echoCheck tail.echo → exec (.frameEnd tail) s = .next (lost 0x00000011))
    ∧ (tail.check = echoCheck tail.echo → tail.echo ≠ tail.ack → exec (.frameEnd tail) s = .next (lost 0x00000012))
    ∧ (tail.check = echoCheck tail.echo → tail.echo = tail.ack →
      (∀ f, Sys2Proof.Spec.heard s f → f.sender = s.straps.addr → s.engine.lostAtSender = false →
        exec (.frameEnd tail) s = .next (lost 0x00000013))
      ∧ (∀ f r, Sys2Proof.Spec.heard s f → f.body = .roster r → f.sender ≠ s.straps.addr →
        s.chassis.record f.sender ≠ none → setWithin r.members tail.echo = true → setHas r.members s.straps.addr = true →
        r.generation ≠ s.chassis.generation + 1 → exec (.frameEnd tail) s = .next (lost 0x00000014))
      ∧ (∀ m, (∀ f, ¬Sys2Proof.Spec.heard s f) → s.chassis.record s.straps.addr = some m →
        m.state = .departing ∨ s.chassis.dropLimit ≤ m.miss → tail.echo &&& s.chassis.map ≠ 0 →
        exec (.frameEnd tail) s = .next (lost 0x00000011)))

/-- R36, Table 2-7: the level outside MEMBER and LEAVING. -/
def Sys2Proof.Spec.detachedLevel : Policy → Level → Level
  | .hold, l => l
  | .contain, .halt => .halt
  | .contain, _ => .contain
  | .halt, _ => .halt

/-- R18, R75, R85: what a station keeps when it leaves the chassis, before its new state is entered. -/
def Sys2Proof.Spec.abandoned (s u : State) : Prop :=
  u.chassis = State.reset.chassis ∧ u.copyValid = false ∧ u.ctl.duties = none ∧ u.ctl.admission = none
    ∧ u.ctl.transfer = none ∧ u.ctl.joinOwed = false
    ∧ u.engine = { s.engine with foreign := 0 }
    ∧ u.queue = s.queue.returnHead
    ∧ (s.queue.inFlight = none → u.log = s.log)
    ∧ (∀ h r, s.queue.inFlight = some h → h.item.notice = .fault r →
        u.log = if h.item.linked then s.log.setState r.source .queued else s.log)
    ∧ (∀ h, s.queue.inFlight = some h → (∀ r, h.item.notice ≠ .fault r) → u.log = s.log)
    ∧ u.outputs.lastKnown = s.outputs.lastKnown ∧ u.outputs.policy = s.outputs.policy
    ∧ u.outputs.driven = Sys2Proof.Spec.detachedLevel s.outputs.policy s.outputs.lastKnown
    ∧ u.alerts.mask = s.alerts.mask
    ∧ u.monitor = s.monitor ∧ u.items = s.items ∧ u.port = s.port ∧ u.power = s.power ∧ u.straps = s.straps
    ∧ u.freeCount = s.freeCount ∧ u.pending = s.pending

/-- What entering ADRIFT does. -/
def Obligations.GoingAdrift : Prop :=
  ∀ (s : State) (code : Word), ∃ u, s.toAdrift code = u.assertSource 31 code
    ∧ Sys2Proof.Spec.abandoned s u
    ∧ u.ctl.station = .adrift ∧ u.ctl.joinTimer = some s.items.joinWait ∧ u.ctl.adriftFrames = 0
    ∧ u.ctl.adriftLeaving = decide (s.ctl.station = .leaving) ∧ u.ctl.cause = s.ctl.cause
    ∧ u.alerts.pending
        = s.alerts.pending ||| (if u.outputs.driven = s.outputs.driven then 0 else 0x40) ||| 0x04

/-- R98, R37, R23: a settled frame has been applied, and nothing but copy, outputs and alerts is told of here. -/
def Sys2Proof.Spec.applied (s t : State) (c : Chassis) (causes : Byte) : Prop :=
  t.chassis = c ∧ t.outputs.lastKnown = c.level ∧ t.outputs.driven = c.level ∧ t.outputs.policy = s.outputs.policy
    ∧ t.alerts.mask = s.alerts.mask
    ∧ t.alerts.pending = s.alerts.pending ||| (if c.first.isSome = s.chassis.first.isSome then 0 else 0x20) ||| causes
        ||| (if c.level = s.outputs.driven then 0 else 0x40)
    ∧ t.monitor = s.monitor ∧ t.items = s.items ∧ t.power = s.power ∧ t.straps = s.straps
    ∧ t.freeCount = s.freeCount ∧ t.pending = s.pending

/-- A settled notice of another station at a MEMBER or LEAVING station. The model's choice: log 32. -/
def Obligations.SettledNoticeOfAnotherStation : Prop :=
  ∀ (s : State) (tail : Tail) (f : Frame) (n : Notice) (c : Chassis), Sys2Proof.Spec.agreed s tail →
    Sys2Proof.Spec.heard s f → s.engine.sent = none → s.ctl.station = .member ∨ s.ctl.station = .leaving →
    f.body = .notice n → f.sender ≠ s.straps.addr → s.chassis.record f.sender ≠ none →
    setWithin s.chassis.map tail.echo = true → c = Sys2Proof.Spec.heardAll (s.chassis.apply f.sender f.body) →
    s.ctl.station = .member ∨ c.rosterStation ≠ none →
    ∃ t, exec (.frameEnd tail) s = .next t
      ∧ Sys2Proof.Spec.applied s t c (if n = .leave then 0x08 else 0)
      ∧ t.engine = Sys2Proof.Spec.ended s.engine
      ∧ t.ctl = { s.ctl with
          admission := none
          duties := Sys2Proof.Spec.role c s.straps.addr (s.ctl.duties.map (fun d => { d with sequencer := none })) }
      ∧ t.queue = s.queue ∧ t.log = s.log ∧ t.port = s.port

/-- R74, R32: what the sender's queue, log and port hold when its own notice has settled. -/
def Sys2Proof.Spec.headSettled (s t : State) (h : Head) : Prop :=
  t.queue = { s.queue with inFlight := none }
    ∧ (∀ r, h.item.notice = .fault r →
        t.log = if h.item.linked then s.log.setState r.source (.reported (s.chassis.settle + 1)) else s.log)
    ∧ ((∀ r, h.item.notice ≠ .fault r) → t.log = s.log)
    ∧ (∀ scope origin reference, h.item.notice = .clear scope origin reference →
        t.port = { s.port with clear := some ⟨scope, origin, reference,
          s.chassis.clearOutcome s.straps.addr scope origin reference, s.chassis.settle + 1⟩ })
    ∧ ((∀ scope origin reference, h.item.notice ≠ .clear scope origin reference) → t.port = s.port)

/-- R32, R98: the alert cause of the station's own settled notice, beside those of its application. -/
def Sys2Proof.Spec.ownCause : Notice → Byte
  | .leave => 0x08
  | .clear _ _ _ => 0x10
  | .fault _ => 0
  | .resolve _ => 0

/-- A settled notice of the station's own. The model's choice: log 32. -/
def Obligations.OwnSettledNotice : Prop :=
  ∀ (s : State) (tail : Tail) (f : Frame) (h : Head) (x : Sent) (c : Chassis), Sys2Proof.Spec.agreed s tail →
    Sys2Proof.Spec.heard s f → s.engine.sent = some x → x.path = .queue → s.queue.inFlight = some h →
    s.ctl.station = .member ∨ s.ctl.station = .leaving →
    f.body = .notice h.item.notice → f.sender = s.straps.addr → s.chassis.record f.sender ≠ none →
    setWithin s.chassis.map tail.echo = true → c = Sys2Proof.Spec.heardAll (s.chassis.apply f.sender f.body) →
    (s.ctl.station = .member ∧ h.item.notice ≠ .leave) ∨ c.rosterStation ≠ none →
    ∃ t, exec (.frameEnd tail) s = .next t
      ∧ Sys2Proof.Spec.applied s t c (Sys2Proof.Spec.ownCause h.item.notice)
      ∧ t.engine = Sys2Proof.Spec.ended s.engine
      ∧ t.ctl = { s.ctl with
          station := if h.item.notice = .leave then .leaving else s.ctl.station
          joinTimer := if h.item.notice = .leave then none else s.ctl.joinTimer
          admission := none
          duties := Sys2Proof.Spec.role c s.straps.addr (s.ctl.duties.map (fun d => { d with sequencer := none })) }
      ∧ Sys2Proof.Spec.headSettled s t h

/-- A settled ROSTER with the right generation that holds the station. The model's choice: log 32. -/
def Obligations.SettledRosterThatKeepsTheStation : Prop :=
  ∀ (s : State) (tail : Tail) (f : Frame) (r : RosterBody) (c : Chassis), Sys2Proof.Spec.agreed s tail →
    Sys2Proof.Spec.heard s f → s.ctl.station = .member ∨ (s.ctl.station = .leaving ∧ c.rosterStation ≠ none) →
    f.body = .roster r → s.chassis.record f.sender ≠ none → setWithin r.members tail.echo = true → setHas r.members s.straps.addr = true →
    r.generation = s.chassis.generation + 1 → c = s.chassis.apply f.sender f.body →
    (s.engine.sent = none → f.sender ≠ s.straps.addr →
      ∃ t, exec (.frameEnd tail) s = .next t
        ∧ Sys2Proof.Spec.applied s t c 0x08
        ∧ t.engine = Sys2Proof.Spec.ended { s.engine with foreign := 0 }
        ∧ t.ctl = { s.ctl with
            admission := r.admitted.map (fun a => ⟨a, 1 + (if r.withFirst then 1 else 0) + r.entries⟩)
            duties := Sys2Proof.Spec.role c s.straps.addr (s.ctl.duties.map (fun d => { d with sequencer := none })) }
        ∧ t.queue = s.queue ∧ t.log = s.log ∧ t.port = s.port)
    ∧ (∀ x d, s.engine.sent = some x → x.path = .roster → s.ctl.duties = some d →
      c.rosterStation = some s.straps.addr →
      ∃ t, exec (.frameEnd tail) s = .next t
        ∧ Sys2Proof.Spec.applied s t c 0x08
        ∧ t.engine = Sys2Proof.Spec.ended { s.engine with foreign := 0 }
        ∧ t.ctl = { s.ctl with
            admission := r.admitted.map (fun a => ⟨a, 1 + (if r.withFirst then 1 else 0) + r.entries⟩)
            duties := some
              { list := d.list.filter (fun y => decide (r.admitted ≠ some y))
                sequencer := r.admitted.map (fun a => ⟨a, 0, 1 + (if r.withFirst then 1 else 0) + r.entries⟩)
                retries := 0 } }
        ∧ t.queue = s.queue ∧ t.log = s.log ∧ t.port = s.port)

/-- A settled SNAP at a MEMBER or LEAVING station. The model's choice: log 32, 36. -/
def Obligations.SettledSnapAtAMember : Prop :=
  ∀ (s : State) (tail : Tail) (f : Frame) (index : BitVec 6) (content : BitVec 90) (c : Chassis),
    Sys2Proof.Spec.agreed s tail → Sys2Proof.Spec.heard s f →
    s.ctl.station = .member ∨ (s.ctl.station = .leaving ∧ c.rosterStation ≠ none) → f.body = .snap index content →
    s.chassis.record f.sender ≠ none → setWithin s.chassis.map tail.echo = true →
    (s.engine.sent = none ∧ f.sender ≠ s.straps.addr) ∨ (∃ x, s.engine.sent = some x ∧ x.path = .roster) →
    ((∀ a, s.ctl.admission = some a → index ≠ a.total - 1) → c = Sys2Proof.Spec.heardAll s.chassis →
      exec (.frameEnd tail) s = .next (((s.withChassis c).withCtl
        { s.ctl with
          duties := Sys2Proof.Spec.role c s.straps.addr
            (if s.engine.sent.isSome then s.ctl.duties.map (fun d => d.settled f.body) else s.ctl.duties) }).withEngine
          (Sys2Proof.Spec.ended s.engine)))
    ∧ (∀ a, s.ctl.admission = some a → index = a.total - 1 →
      c = Sys2Proof.Spec.heardAll (s.chassis.setMemberState a.addr .full) →
      exec (.frameEnd tail) s = .next ((((s.withChassis c).withCtl
        { s.ctl with
          admission := none
          duties := Sys2Proof.Spec.role c s.straps.addr
            (if s.engine.sent.isSome then s.ctl.duties.map (fun d => d.settled f.body) else s.ctl.duties) }).withEngine
          (Sys2Proof.Spec.ended s.engine)).setCause .rosterChange))
    ∧ (∀ (d : Duties) (q : Sequencer), d.sequencer = some q →
      (q.next + 1 = q.total → d.settled f.body = { d with sequencer := none, retries := 0 })
      ∧ (q.next + 1 ≠ q.total → d.settled f.body = { d with sequencer := some { q with next := q.next + 1 }, retries := 0 }))

/-- R101, R103: the station has become DETACHED for a cause, with an automatic join pending or not, at the end of a complete
frame that left it as s. -/
def Sys2Proof.Spec.detached (s t : State) (cause : Removal) (autoJoin : Bool) (causes : Byte) : Prop :=
  ∃ u, Sys2Proof.Spec.abandoned s u ∧ t = u.withEngine (Sys2Proof.Spec.ended u.engine)
    ∧ u.ctl = { s.ctl with
        station := .detached
        cause := cause
        joinPending := autoJoin
        joinTimer := if autoJoin then some s.items.joinWait else none
        duties := none
        admission := none
        transfer := none
        joinOwed := false }
    ∧ u.alerts.pending = s.alerts.pending ||| (if u.outputs.driven = s.outputs.driven then 0 else 0x40) ||| causes

/-- R117: no roster station is left at the end of the echo, and the station, which the frame left as `mid`, becomes DETACHED
with cause departed and no automatic join. -/
def Sys2Proof.Spec.noneLeft (s mid : State) (tail : Tail) : Prop :=
  ∃ t, exec (.frameEnd tail) s = .next t ∧ Sys2Proof.Spec.detached mid t .departed false 0

/-- A frame of another station, read good, that does not settle here: a JOIN, or one whose expecting map is not all
acknowledged. -/
def Sys2Proof.Spec.unsettled (s : State) (tail : Tail) (f : Frame) : Prop :=
  Sys2Proof.Spec.heard s f ∧ s.engine.sent = none ∧ f.sender ≠ s.straps.addr
    ∧ (f.body = .join ∨ (s.chassis.record f.sender ≠ none
      ∧ ((∀ r, f.body ≠ .roster r) → setWithin s.chassis.map tail.echo = false)
      ∧ ∀ r, f.body = .roster r → setWithin r.members tail.echo = false))

/-- R53: a frame of another station whose body was not read good and could not have removed this one. -/
def Sys2Proof.Spec.badBody (s : State) (tail : Tail) : Prop :=
  (∀ f, ¬Sys2Proof.Spec.heard s f) ∧ s.engine.sent = none
    ∧ ((∀ m, s.chassis.record s.straps.addr = some m → m.state ≠ .departing ∧ m.miss < s.chassis.dropLimit)
      ∨ tail.echo &&& s.chassis.map = 0)

/-- R57: a frame foreign to a station in step. -/
def Sys2Proof.Spec.foreignFrame (s : State) (f : Frame) : Prop :=
  Sys2Proof.Spec.heard s f ∧ s.engine.sent = none ∧ f.sender ≠ s.straps.addr ∧ f.body ≠ .join
    ∧ s.chassis.record f.sender = none

/-- Removal by a ROSTER, and leaving where no roster station is left. The model's choice: log 13, 15, 17, 21, 28, 32,
42. -/
def Obligations.RemovalFromTheChassis : Prop :=
  (∀ (s : State) (tail : Tail) (f : Frame) (r : RosterBody), Sys2Proof.Spec.agreed s tail → Sys2Proof.Spec.heard s f →
      s.engine.sent = none → f.body = .roster r → f.sender ≠ s.straps.addr → setWithin r.members tail.echo = true →
      setHas r.members s.straps.addr = false →
      (s.ctl.station = .member ∨ s.ctl.station = .leaving → s.chassis.record f.sender ≠ none →
        ∃ t, exec (.frameEnd tail) s = .next t
          ∧ Sys2Proof.Spec.detached s t (if setHas r.departing s.straps.addr then .departed else .dropped)
              (decide (s.ctl.station = .member) && !setHas r.departing s.straps.addr && s.items.autoRejoin) 0x08)
      ∧ (s.ctl.station = .adrift →
        ∃ t, exec (.frameEnd tail) s = .next t
          ∧ Sys2Proof.Spec.detached s t (if setHas r.departing s.straps.addr then .departed else .dropped)
              (s.items.autoRejoin && !s.ctl.adriftLeaving) 0x08))
    ∧ ((∀ (s : State) (tail : Tail) (f : Frame) (n : Notice) (c : Chassis), Sys2Proof.Spec.agreed s tail →
      Sys2Proof.Spec.heard s f → s.ctl.station = .leaving → s.engine.sent = none → f.sender ≠ s.straps.addr →
      f.body = .notice n → s.chassis.record f.sender ≠ none → setWithin s.chassis.map tail.echo = true →
      c = Sys2Proof.Spec.heardAll (s.chassis.apply f.sender f.body) → c.rosterStation = none →
      ∃ mid, Sys2Proof.Spec.noneLeft s mid tail
        ∧ Sys2Proof.Spec.applied s mid c (if n = .leave then 0x08 else 0)
        ∧ mid.ctl = { s.ctl with admission := mid.ctl.admission, duties := mid.ctl.duties }
        ∧ mid.engine = s.engine ∧ mid.queue = s.queue ∧ mid.log = s.log ∧ mid.port = s.port)
      ∧ (∀ (s : State) (tail : Tail) (f : Frame) (h : Head) (x : Sent) (c : Chassis), Sys2Proof.Spec.agreed s tail →
        Sys2Proof.Spec.heard s f → s.engine.sent = some x → x.path = .queue → s.queue.inFlight = some h →
        s.ctl.station = .leaving ∨ (s.ctl.station = .member ∧ h.item.notice = .leave) →
        f.body = .notice h.item.notice → f.sender = s.straps.addr → s.chassis.record f.sender ≠ none →
        setWithin s.chassis.map tail.echo = true → c = Sys2Proof.Spec.heardAll (s.chassis.apply f.sender f.body) →
        c.rosterStation = none →
        ∃ mid, Sys2Proof.Spec.noneLeft s mid tail
          ∧ Sys2Proof.Spec.applied s mid c (Sys2Proof.Spec.ownCause h.item.notice)
          ∧ mid.ctl = { s.ctl with
              station := .leaving
              joinTimer := mid.ctl.joinTimer
              admission := mid.ctl.admission
              duties := mid.ctl.duties }
          ∧ mid.engine = s.engine ∧ Sys2Proof.Spec.headSettled s mid h))
    ∧ (∀ (s : State) (tail : Tail) (c : Chassis), Sys2Proof.Spec.agreed s tail → s.ctl.station = .leaving →
      c.rosterStation = none →
      (∀ (f : Frame) (r : RosterBody), Sys2Proof.Spec.heard s f → f.body = .roster r →
        (s.engine.sent = none ∧ f.sender ≠ s.straps.addr) ∨ (∃ x, s.engine.sent = some x ∧ x.path = .roster) →
        s.chassis.record f.sender ≠ none → setWithin r.members tail.echo = true →
        setHas r.members s.straps.addr = true → r.generation = s.chassis.generation + 1 →
        c = s.chassis.apply f.sender f.body →
        ∃ mid, Sys2Proof.Spec.noneLeft s mid tail ∧ Sys2Proof.Spec.applied s mid c 0x08
          ∧ mid.ctl = { s.ctl with admission := mid.ctl.admission, duties := mid.ctl.duties }
          ∧ mid.engine = { s.engine with foreign := 0 } ∧ mid.queue = s.queue ∧ mid.log = s.log ∧ mid.port = s.port)
      ∧ (∀ (f : Frame) (index : BitVec 6) (content : BitVec 90), Sys2Proof.Spec.heard s f → f.body = .snap index content →
        (s.engine.sent = none ∧ f.sender ≠ s.straps.addr) ∨ (∃ x, s.engine.sent = some x ∧ x.path = .roster) →
        s.chassis.record f.sender ≠ none → setWithin s.chassis.map tail.echo = true →
        ((∀ a, s.ctl.admission = some a → index ≠ a.total - 1) → c = Sys2Proof.Spec.heardAll s.chassis →
          ∃ d, Sys2Proof.Spec.noneLeft s ((s.withChassis c).withCtl { s.ctl with duties := d }) tail)
        ∧ (∀ a, s.ctl.admission = some a → index = a.total - 1 →
          c = Sys2Proof.Spec.heardAll (s.chassis.setMemberState a.addr .full) →
          ∃ d, Sys2Proof.Spec.noneLeft s
            (((s.withChassis c).withCtl { s.ctl with admission := none, duties := d }).setCause .rosterChange) tail))
      ∧ (c = Sys2Proof.Spec.counted s.chassis tail.echo →
        (∀ f, Sys2Proof.Spec.unsettled s tail f → Sys2Proof.Spec.noneLeft s (s.withChassis c) tail)
        ∧ (Sys2Proof.Spec.badBody s tail → Sys2Proof.Spec.noneLeft s (s.withChassis c) tail)
        ∧ ∀ (f : Frame) (x : Sent), Sys2Proof.Spec.heard s f → s.engine.sent = some x → f.sender = s.straps.addr →
            s.chassis.record f.sender ≠ none →
            (∀ n h, x.path = .queue → f.body = .notice n → setWithin s.chassis.map tail.echo = false →
              s.queue.inFlight = some h →
              Sys2Proof.Spec.noneLeft s
                ((s.withChassis c).withQueue { s.queue with inFlight := some (Sys2Proof.Spec.spent h) }) tail)
            ∧ (x.path = .roster → (∀ r, f.body = .roster r → setWithin r.members tail.echo = false) →
              (∀ index content, f.body = .snap index content → setWithin s.chassis.map tail.echo = false) →
              (∃ r, f.body = .roster r) ∨ (∃ index content, f.body = .snap index content) →
              ∃ d, Sys2Proof.Spec.noneLeft s ((s.withChassis c).withCtl { s.ctl with duties := d }) tail))
      ∧ (∀ f, Sys2Proof.Spec.foreignFrame s f → s.chassis = c → Sys2Proof.Spec.noneLeft s s tail))

/-- R55, R84, R117: the station stays in its state after a frame that did not settle, with a copy. -/
def Sys2Proof.Spec.stays (s : State) (c : Chassis) (u : State) : Prop :=
  ((s.ctl.station = .member ∨ (s.ctl.station = .leaving ∧ c.rosterStation ≠ none))
      ∧ u = (s.withChassis c).withCtl { s.ctl with duties := Sys2Proof.Spec.role c s.straps.addr s.ctl.duties })
    ∨ (s.ctl.station = .transfer ∧ u = s.withChassis c)

/-- Complete frames of other stations that do not settle at a member or a joiner in transfer. The model's choice: log
15, 21, 32. -/
def Obligations.FramesThatDoNotSettle : Prop :=
  ∀ (s : State) (tail : Tail) (u : State), Sys2Proof.Spec.agreed s tail →
    (Sys2Proof.Spec.stays s (Sys2Proof.Spec.counted s.chassis tail.echo) u →
      (∀ f, Sys2Proof.Spec.unsettled s tail f →
        exec (.frameEnd tail) s = .next (u.withEngine (Sys2Proof.Spec.ended s.engine)))
      ∧ (Sys2Proof.Spec.badBody s tail →
        exec (.frameEnd tail) s = .next (u.withEngine (Sys2Proof.Spec.ended s.engine))))
    ∧ (Sys2Proof.Spec.stays s s.chassis u → ∀ f, Sys2Proof.Spec.foreignFrame s f →
      exec (.frameEnd tail) s = .next (u.withEngine (Sys2Proof.Spec.ended s.engine)))

/-- The station's own complete frames that do not settle. The model's choice: log 5, 17, 32. -/
def Obligations.OwnFramesThatDoNotSettle : Prop :=
  ∀ (s : State) (tail : Tail) (f : Frame) (x : Sent) (c : Chassis), Sys2Proof.Spec.agreed s tail →
    Sys2Proof.Spec.heard s f → s.engine.sent = some x →
    s.ctl.station = .member ∨ (s.ctl.station = .leaving ∧ c.rosterStation ≠ none) →
    f.sender = s.straps.addr → s.chassis.record f.sender ≠ none → c = Sys2Proof.Spec.counted s.chassis tail.echo →
    (∀ n h, x.path = .queue → f.body = .notice n → setWithin s.chassis.map tail.echo = false →
      s.queue.inFlight = some h →
      exec (.frameEnd tail) s = .next ((((s.withChassis c).withCtl
        { s.ctl with duties := Sys2Proof.Spec.role c s.straps.addr s.ctl.duties }).withQueue
          { s.queue with inFlight := some (Sys2Proof.Spec.spent h) }).withEngine (Sys2Proof.Spec.ended s.engine)))
    ∧ (∀ r d, x.path = .roster → f.body = .roster r → setWithin r.members tail.echo = false → s.ctl.duties = some d →
      exec (.frameEnd tail) s = .next (((s.withChassis c).withCtl
        { s.ctl with duties := Sys2Proof.Spec.role c s.straps.addr (some
          { d with
            retries := d.retries + 1
            list := d.list.filter (fun y => decide (¬(r.admitted = some y ∧ setHas tail.echo y = false
              ∧ ∀ b, b ≠ y → setHas r.members b = true → setHas tail.echo b = true))) }) }).withEngine
          (Sys2Proof.Spec.ended s.engine)))
    ∧ (∀ index content d, x.path = .roster → f.body = .snap index content → setWithin s.chassis.map tail.echo = false →
      s.ctl.duties = some d →
      exec (.frameEnd tail) s = .next (((s.withChassis c).withCtl
        { s.ctl with duties := Sys2Proof.Spec.role c s.straps.addr (some { d with retries := d.retries + 1 }) }).withEngine
          (Sys2Proof.Spec.ended s.engine)))

/-- Complete frames at a DETACHED, JOINING or ADRIFT station. The model's choice: log 5, 32. -/
def Obligations.CompleteFramesOutsideTheChassis : Prop :=
  ∀ (s : State) (tail : Tail), Sys2Proof.Spec.ending s → ¬Sys2Proof.Spec.broken s tail →
    (s.ctl.station = .detached → s.engine.sent = none →
      exec (.frameEnd tail) s = .next (s.withEngine (Sys2Proof.Spec.ended s.engine)))
    ∧ (s.ctl.station = .joining → s.engine.sent = none →
      (∀ f r, Sys2Proof.Spec.heard s f → f.body = .roster r → r.admitted ≠ some s.straps.addr
        ∨ setWithin r.members tail.echo = false ∨ tail.check ≠ echoCheck tail.echo ∨ tail.echo ≠ tail.ack) →
      exec (.frameEnd tail) s = .next (s.withEngine (Sys2Proof.Spec.ended s.engine)))
    ∧ (∀ x f, s.ctl.station = .joining → s.engine.sent = some x → x.path = .join → Sys2Proof.Spec.heard s f →
      f.body = .join →
      exec (.frameEnd tail) s = .next ((s.withCtl { s.ctl with joinOwed := false, joinTimer := some s.items.joinWait }).withEngine
        (Sys2Proof.Spec.ended s.engine)))
    ∧ (s.ctl.station = .adrift → s.engine.sent = none →
      (∀ f r, Sys2Proof.Spec.heard s f → f.body = .roster r → setHas r.members s.straps.addr = true
        ∨ setWithin r.members tail.echo = false ∨ tail.check ≠ echoCheck tail.echo ∨ tail.echo ≠ tail.ack) →
      exec (.frameEnd tail) s = .next ((s.withCtl { s.ctl with adriftFrames := s.ctl.adriftFrames + 1 }).withEngine
        (Sys2Proof.Spec.ended s.engine)))

/-! ### The roster station -/

/-- The roster station is the lowest FULL member below the drop limit. -/
def Obligations.RosterStationIsTheLowestFullMember : Prop :=
  (∀ (c : Chassis) (a : Addr), c.rosterStation = some a ↔
    (∃ m, c.record a = some m ∧ m.state = .full ∧ m.miss < c.dropLimit)
      ∧ ∀ (b : Addr) (m : Member), b < a → c.record b = some m → ¬(m.state = .full ∧ m.miss < c.dropLimit))
    ∧ ∀ c : Chassis, c.rosterStation = none ↔
        ∀ (b : Addr) (m : Member), c.record b = some m → ¬(m.state = .full ∧ m.miss < c.dropLimit)

/-- What the roster station owes, and the content of each SNAP. -/
def Obligations.RosterFramesOwed : Prop :=
  (∀ (c : Chassis) (d : Duties),
      ((∃ a m, c.record a = some m ∧ (c.dropLimit ≤ m.miss ∨ m.state = .departing)) →
        ∃ r, c.rosterOwed d = some (.roster r)
          ∧ (∀ a, setHas r.members a = true ↔ ∃ m, c.record a = some m ∧ m.miss < c.dropLimit ∧ m.state ≠ .departing)
          ∧ (∀ a, setHas r.departing a = true ↔ ∃ m, c.record a = some m ∧ m.state = .departing)
          ∧ (∀ a, setHas r.newMembers a = true ↔ ∃ m, c.record a = some m ∧ m.miss < c.dropLimit ∧ m.state = .new)
          ∧ r.generation = c.generation + 1 ∧ r.admitted = none ∧ r.dropLimit = c.dropLimit ∧ r.loss = c.loss
          ∧ r.entries = 0 ∧ r.withFirst = false)
      ∧ ((∀ a m, c.record a = some m → m.miss < c.dropLimit ∧ m.state ≠ .departing) →
        (∀ q, d.sequencer = some q → c.rosterOwed d = some (.snap q.next (c.snapContent q.next.toNat)))
        ∧ (∀ x rest, d.sequencer = none → d.list = x :: rest →
          ∃ r, c.rosterOwed d = some (.roster r)
            ∧ (∀ a, setHas r.members a = true ↔ c.record a ≠ none ∨ a = x)
            ∧ r.departing = 0
            ∧ (∀ a, setHas r.newMembers a = true ↔ (∃ m, c.record a = some m ∧ m.state = .new) ∨ a = x)
            ∧ r.generation = c.generation + 1 ∧ r.admitted = some x ∧ r.dropLimit = c.dropLimit ∧ r.loss = c.loss
            ∧ r.entries = BitVec.ofNat 6 c.table.length ∧ r.withFirst = c.first.isSome)
        ∧ (d.sequencer = none → d.list = [] → c.rosterOwed d = none)))
    ∧ (∀ c : Chassis, c.table.length ≤ 32 →
      (∃ total : BitVec 6, total.toNat = 1 + c.first.isSome.toNat + c.table.length
        ∧ readHeader (c.snapContent 0) = ⟨total, c.settle, c.halt, c.dropped, c.sinceFirst⟩)
      ∧ (c.snapContent 0).extractLsb' 0 19 = 0
      ∧ (∀ f, c.first = some f → (f.source ≤ 32 → readFirst (c.snapContent 1) = some f)
        ∧ (c.snapContent 1).extractLsb' 0 14 = 0)
      ∧ ∀ (i : Nat) (e : Entry), c.table[i]? = some e →
          (e.source ≤ 32 → e.occurrences ≠ 0 → readEntry (c.snapContent (i + 1 + c.first.isSome.toNat)) = some e)
          ∧ (c.snapContent (i + 1 + c.first.isSome.toNat)).extractLsb' 0 5 = 0)

/-! ### Joining -/

/-- R104: the Roster Controller on entering JOINING. -/
def Sys2Proof.Spec.joining (c : Ctl) : Ctl :=
  { c with station := .joining, joinTimer := none, joinPending := false, joinOwed := true, attempts := 0,
           heardTraffic := false, heardList := [] }

/-- R113, R108: what the station holds when it becomes MEMBER, but for what the re-queued records change. -/
def Sys2Proof.Spec.becameMember (s t u : State) (c : Chassis) (causes : Byte) : Prop :=
  t.chassis = c ∧ t.outputs.lastKnown = c.level ∧ t.outputs.driven = c.level ∧ t.outputs.policy = s.outputs.policy
    ∧ u.alerts.mask = s.alerts.mask
    ∧ u.alerts.pending = s.alerts.pending ||| causes ||| (if c.level = s.outputs.driven then 0 else 0x40) ||| 0x08
    ∧ u.queue = s.queue ∧ u.log = s.log
    ∧ t.queue = u.requeueUnsent.queue ∧ t.log = u.requeueUnsent.log ∧ t.alerts = u.requeueUnsent.alerts
    ∧ t.monitor = s.monitor ∧ t.items = s.items ∧ t.port = s.port ∧ t.power = s.power ∧ t.straps = s.straps
    ∧ t.freeCount = s.freeCount ∧ t.pending = s.pending

/-- A join wait that ends in silence founds a chassis. -/
def Obligations.Founding : Prop :=
  ∀ s : State, s.ready → s.ctl.station = .joining → s.ctl.joinTimer ≠ none → s.ctl.heardTraffic = false →
    s.legal →
    ∃ t u c, exec .joinWaitExpiry s = .next t
      ∧ Sys2Proof.Spec.becameMember s t u c 0
      ∧ c.generation = 1 ∧ (∀ a, c.record a = if a = s.straps.addr then some ⟨.full, 0⟩ else none)
      ∧ c.dropLimit = s.items.foundingDropLimit ∧ c.loss = s.items.foundingLoss
      ∧ c.table = [] ∧ c.settle = 0 ∧ c.dropped = 0 ∧ c.first = none ∧ c.sinceFirst = 0 ∧ c.halt = false
      ∧ c.level = .quiet
      ∧ t.ctl = { s.ctl with
          station := .member
          duties := some ⟨s.ctl.heardList, none, 0⟩
          joinTimer := none
          transfer := none
          cause := .none }
      ∧ t.engine = { s.engine with foreign := 0 }

/-- The automatic join, the join wait with traffic, and the transfer timer. -/
def Obligations.AutomaticJoinAndJoinTimers : Prop :=
  (∀ s : State, s.ready → s.ctl.station = .detached → s.ctl.joinPending = true → s.ctl.joinTimer ≠ none →
      exec .automaticJoin s = .next (s.withCtl (Sys2Proof.Spec.joining s.ctl)))
    ∧ (∀ s : State, s.ready → s.ctl.joinTimer ≠ none →
      (s.ctl.station = .joining → s.ctl.heardTraffic = true →
        exec .joinWaitExpiry s = .next (s.withCtl
          { s.ctl with joinTimer := none, attempts := Sys2Proof.Spec.bump s.ctl.attempts, heardTraffic := false,
                       heardList := [], joinOwed := true }))
      ∧ (s.ctl.station = .transfer → exec .transferTimerExpiry s = .next (s.toAdrift 0x00000016)))

/-- Local records follow the queue, and UNSENT records are queued again. The model's choice: log 12. -/
def Obligations.RecordsFollowTheQueue : Prop :=
  ((∀ (s : State) (r : Report) (a : Answer), r.source < 32 → a = s.queue.offerFault r true →
      (a.taken = true → a.displaced = none →
        s.takeFault r true = (s.withQueue a.queue).withLog (s.log.setState r.source .queued))
      ∧ (∀ (i : Item) (d : Report), a.taken = true → a.displaced = some i → i.notice = .fault d → i.linked = true →
        d.source < 32 →
        s.takeFault r true
          = (((s.withQueue { a.queue.unlink d.source with loss := Sys2Proof.Spec.bump a.queue.loss }).withLog
              ((s.log.setState d.source .unsent).setState r.source .queued)).setCause .queueLoss))
      ∧ (∀ i : Item, a.taken = true → a.displaced = some i → (∀ d, i.notice ≠ .fault d) ∨ i.linked = false →
        s.takeFault r true
          = (((s.withQueue { a.queue with loss := Sys2Proof.Spec.bump a.queue.loss }).withLog
              (s.log.setState r.source .queued)).setCause .queueLoss))
      ∧ (a.taken = false →
        s.takeFault r true
          = (((s.withQueue { a.queue with loss := Sys2Proof.Spec.bump a.queue.loss }).withLog
              (s.log.setState r.source .unsent)).setCause .queueLoss)))
      ∧ (∀ (s : State) (r : Report) (a : Answer), a = s.queue.offerFault r false →
        (a.taken = false → a.displaced = none →
          s.takeFault r false
            = (s.withQueue { a.queue with loss := Sys2Proof.Spec.bump a.queue.loss }).setCause .queueLoss)
        ∧ ((∀ i ∈ s.queue.waiting, i.notice.isFault r.source = false) → a.taken = true →
          (a.displaced = none → s.takeFault r false = s.withQueue a.queue)
          ∧ (∀ (i : Item) (d : Report), a.displaced = some i → i.notice = .fault d → i.linked = true →
            s.takeFault r false
              = (((s.withQueue { a.queue.unlink d.source with loss := Sys2Proof.Spec.bump a.queue.loss }).withLog
                  (s.log.setState d.source .unsent)).setCause .queueLoss))
          ∧ (∀ i : Item, a.displaced = some i → (∀ d, i.notice ≠ .fault d) ∨ i.linked = false →
            s.takeFault r false
              = (s.withQueue { a.queue with loss := Sys2Proof.Spec.bump a.queue.loss }).setCause .queueLoss))
        ∧ (∀ (pre post : List Item) (old : Item), s.queue.waiting = pre ++ old :: post →
          old.notice.isFault r.source = true → (∀ i ∈ pre ++ post, i.notice.isFault r.source = false) →
          s.takeFault r false
            = if old.linked then (s.withQueue a.queue).withLog (s.log.setState r.source .queued) else s.withQueue a.queue))
      ∧ (∀ (s : State) (n : Fin 32) (severity : Severity) (detail : Word) (l : Logged),
        l = s.log.take (BitVec.ofFin n) severity detail →
        s.raiseFault n severity detail
          = (if l.firstWritten then (s.withLog l.log).setCause .localFirst else s.withLog l.log).takeFault l.report l.linked)
      ∧ ∀ (l : Log) (n : BitVec 5) (st : LocalState),
          (l.setState (n.setWidth 6) st).records
              = l.records.map (fun x => if x.source = n then { x with state := st } else x)
            ∧ (l.setState (n.setWidth 6) st).overflow = l.overflow ∧ (l.setState (n.setWidth 6) st).counter = l.counter)
    ∧ ((∀ s : State, (∀ r ∈ s.log.records, r.state ≠ .unsent) → s.requeueUnsent = s)
      ∧ (∀ (s : State) (pre post : List Record) (r : Record), s.log.records = pre ++ r :: post →
        (∀ x ∈ pre, x.state ≠ .unsent) → r.state = .unsent → (∀ x ∈ post, x.state ≠ .unsent) →
        s.requeueUnsent
          = s.takeFault ⟨r.source.setWidth 6, r.severity, r.occurrences, r.detail, r.number⟩ true)
      ∧ ∀ s : State, s.requeueUnsent
          = (s.log.records.filter (fun r => decide (r.state = .unsent))).foldl
              (fun t r => t.takeFault ⟨r.source.setWidth 6, r.severity, r.occurrences, r.detail, r.number⟩ true) s)

/-- A JOINING station admitted by a settled ROSTER enters TRANSFER. The model's choice: log 32. -/
def Obligations.AdmittedJoinerEntersTransfer : Prop :=
  ∀ (s : State) (tail : Tail) (f : Frame) (r : RosterBody), Sys2Proof.Spec.agreed s tail → Sys2Proof.Spec.heard s f →
    s.engine.sent = none → s.ctl.station = .joining → f.body = .roster r → r.admitted = some s.straps.addr →
    setWithin r.members tail.echo = true →
    ∃ t total, exec (.frameEnd tail) s = .next t
      ∧ total.toNat = 1 + r.withFirst.toNat + r.entries.toNat
      ∧ t.ctl = { s.ctl with
          station := .transfer
          joinOwed := false
          joinTimer := some s.items.joinWait
          transfer := some ⟨0, total, r.withFirst⟩ }
      ∧ t.chassis.generation = r.generation ∧ t.chassis.dropLimit = r.dropLimit ∧ t.chassis.loss = r.loss
      ∧ (∀ a, t.chassis.record a
          = if setHas r.members a then some ⟨if setHas r.newMembers a then .new else .full, 0⟩ else none)
      ∧ t.chassis.record s.straps.addr = some ⟨.new, 0⟩
      ∧ t.chassis.table = [] ∧ t.chassis.first = none ∧ t.chassis.settle = 0 ∧ t.chassis.dropped = 0
      ∧ t.chassis.halt = false ∧ t.chassis.sinceFirst = 0 ∧ t.copyValid = false
      ∧ t.engine = Sys2Proof.Spec.ended { s.engine with foreign := 0 }
      ∧ t.outputs = s.outputs ∧ t.alerts = s.alerts ∧ t.queue = s.queue ∧ t.log = s.log ∧ t.monitor = s.monitor
      ∧ t.port = s.port ∧ t.items = s.items

/-- R112: a joiner's copy after a SNAP of the expected index whose content is in range. -/
def Sys2Proof.Spec.snapTaken (c d : Chassis) (x : Transfer) (index : BitVec 6) (content : BitVec 90) : Prop :=
  (index = 0 ∧ (readHeader content).total = x.total
      ∧ d = { c with
          settle := (readHeader content).settle
          dropped := (readHeader content).dropped
          halt := (readHeader content).halt
          sinceFirst := (readHeader content).sinceFirst })
    ∨ (index = 1 ∧ x.withFirst = true ∧ ∃ f, readFirst content = some f ∧ d = { c with first := some f })
    ∨ (index ≠ 0 ∧ ¬(index = 1 ∧ x.withFirst = true) ∧ ∃ e, readEntry content = some e
        ∧ (∀ y ∈ c.table, ¬(y.origin = e.origin ∧ y.source = e.source)) ∧ d = { c with table := c.table ++ [e] })

/-- A SNAP settles at a joiner in TRANSFER. -/
def Sys2Proof.Spec.snapSettles (s : State) (tail : Tail) (f : Frame) (x : Transfer) (index : BitVec 6)
    (content : BitVec 90) : Prop :=
  Sys2Proof.Spec.agreed s tail ∧ Sys2Proof.Spec.heard s f ∧ s.engine.sent = none ∧ s.ctl.station = .transfer
    ∧ f.body = .snap index content ∧ f.sender ≠ s.straps.addr ∧ s.chassis.record f.sender ≠ none
    ∧ setWithin s.chassis.map tail.echo = true ∧ s.ctl.transfer = some x

/-- The last SNAP completes the transfer. The model's choice: log 32. -/
def Obligations.TransferCompletes : Prop :=
  ∀ (s : State) (tail : Tail) (f : Frame) (x : Transfer) (index : BitVec 6) (content : BitVec 90) (d c : Chassis),
    Sys2Proof.Spec.snapSettles s tail f x index content → s.legal → index = x.next → x.next + 1 = x.total →
    Sys2Proof.Spec.snapTaken s.chassis d x index content →
    c = { Sys2Proof.Spec.heardAll (d.setMemberState s.straps.addr .full) with level := deriveLevel d.halt d.table } →
    ∃ t u, exec (.frameEnd tail) s = .next t
      ∧ Sys2Proof.Spec.becameMember s t u c (if d.first = none then 0 else 0x20)
      ∧ t.ctl = { s.ctl with
          station := .member
          duties := Sys2Proof.Spec.role c s.straps.addr none
          joinTimer := none
          transfer := none
          cause := .none }
      ∧ t.engine = Sys2Proof.Spec.ended s.engine

/-- Frames that settle at a joiner in TRANSFER. The model's choice: log 32. -/
def Obligations.JoinerInTransfer : Prop :=
  (∀ (s : State) (tail : Tail) (f : Frame) (x : Transfer) (index : BitVec 6) (content : BitVec 90),
      Sys2Proof.Spec.snapSettles s tail f x index content →
      (∀ d, index = x.next → x.next + 1 ≠ x.total → Sys2Proof.Spec.snapTaken s.chassis d x index content →
        exec (.frameEnd tail) s = .next (((s.withChassis (Sys2Proof.Spec.heardAll d)).withCtl
          { s.ctl with transfer := some { x with next := x.next + 1 }, joinTimer := some s.items.joinWait }).withEngine
            (Sys2Proof.Spec.ended s.engine)))
      ∧ (index ≠ x.next ∨ (∀ d, ¬Sys2Proof.Spec.snapTaken s.chassis d x index content) →
        exec (.frameEnd tail) s
          = .next ((s.toAdrift 0x00000016).withEngine (Sys2Proof.Spec.ended { s.engine with foreign := 0 }))))
    ∧ (∀ (s : State) (tail : Tail) (f : Frame), Sys2Proof.Spec.agreed s tail → Sys2Proof.Spec.heard s f →
      s.engine.sent = none → s.ctl.station = .transfer → f.sender ≠ s.straps.addr → s.chassis.record f.sender ≠ none →
      (∀ n, f.body = .notice n → setWithin s.chassis.map tail.echo = true →
        exec (.frameEnd tail) s
          = .next ((s.toAdrift 0x00000016).withEngine (Sys2Proof.Spec.ended { s.engine with foreign := 0 })))
      ∧ (∀ r, f.body = .roster r → setWithin r.members tail.echo = true →
        setHas r.members s.straps.addr = false ∨ r.generation = s.chassis.generation + 1 →
        exec (.frameEnd tail) s
          = .next ((s.toAdrift 0x00000016).withEngine (Sys2Proof.Spec.ended { s.engine with foreign := 0 }))))

/-! ### Counts at their limits, and ADRIFT -/

/-- R103, R119: the station is DETACHED from ADRIFT. -/
def Sys2Proof.Spec.driftedOut (s t : State) : Prop :=
  Sys2Proof.Spec.abandoned s t ∧ t.ctl.station = .detached
    ∧ t.ctl.cause = (if s.ctl.adriftLeaving then .departed else .dropped)
    ∧ t.ctl.joinPending = (s.items.autoRejoin && !s.ctl.adriftLeaving)
    ∧ t.ctl.joinTimer = (if s.items.autoRejoin && !s.ctl.adriftLeaving then some s.items.joinWait else none)
    ∧ t.alerts.pending = s.alerts.pending ||| (if t.outputs.driven = s.outputs.driven then 0 else 0x40)

/-- The adrift wait and the adrift frame count end ADRIFT. The model's choice: log 5. -/
def Obligations.AdriftExits : Prop :=
  ∀ s : State, s.ctl.station = .adrift →
    (s.ready → s.ctl.joinTimer ≠ none →
      ∃ t, exec .adriftWaitExpiry s = .next t ∧ Sys2Proof.Spec.driftedOut s t)
    ∧ (16 ≤ s.ctl.adriftFrames →
      ∃ t, exec .adriftFrameCountExpiry s = .next t ∧ Sys2Proof.Spec.driftedOut s t)
    ∧ (s.ctl.adriftFrames < 16 → exec .adriftFrameCountExpiry s = .next s)

/-- Repeated breaks, a stuck line, and the two retry limits. The model's choice: log 5, 10, 26. -/
def Obligations.CountsAtTheirLimits : Prop :=
  (∀ s : State,
      (4 ≤ s.engine.broken →
        exec .repeatedBreaks s
          = .next (((s.withEngine { s.engine with broken := 0 }).setCause .busFault).assertSource 30 0x00000001))
      ∧ (s.engine.broken < 4 → exec .repeatedBreaks s = .next s)
      ∧ (s.ready → s.engine.bus = .brokenWait ∨ s.engine.bus = .idle ∨ s.engine.phase = .gap →
        exec .stuckLine s
          = .next (((s.withEngine { s.engine with stuckRun := 32, recessive := 0 }).setCause .busFault).assertSource 30
              0x00000002)))
    ∧ (∀ s : State,
      (∀ h, s.queue.inFlight = some h → 16 ≤ h.transmissions → ∃ u,
        exec .retryExhaustion s = .next (u.toAdrift 0x00000015)
          ∧ u.queue = s.queue.retryHead ∧ u.queue.inFlight = none
          ∧ (∀ r, h.item.notice = .fault r → h.item.linked = true → u.log = s.log.setState r.source .queued)
          ∧ ((∀ r, h.item.notice ≠ .fault r) ∨ h.item.linked = false → u.log = s.log)
          ∧ u = (s.withQueue u.queue).withLog u.log)
      ∧ ((∀ h, s.queue.inFlight = some h → h.transmissions < 16) → exec .retryExhaustion s = .next s)
      ∧ (∀ d, s.ctl.duties = some d → 16 ≤ d.retries → exec .rosterRetryExhaustion s = .next (s.toAdrift 0x00000015))
      ∧ ((∀ d, s.ctl.duties = some d → d.retries < 16) → exec .rosterRetryExhaustion s = .next s))

/-! ### Fault lines -/

/-- R123: a line with its assertion taken. -/
def Sys2Proof.Spec.held (l : Line) : Line := { l with tracker := .held, timer := none }

/-! ### The Management Port -/

/-- R151: the response count of the next command. -/
def Sys2Proof.Spec.nextCount (s : State) : Byte := if s.port.count = 255 then 1 else s.port.count + 1

/-- R151: a response with the next count in the buffer. -/
def Sys2Proof.Spec.answered (s : State) (code : Byte) (status : Status) (data : List Byte) : State :=
  s.withPort { s.port with
    response := some ⟨code, Sys2Proof.Spec.nextCount s, status, data⟩, count := Sys2Proof.Spec.nextCount s }

/-- R151, R178: the port after a transaction of n bytes has shifted the stored response out. -/
def Sys2Proof.Spec.shifted (s : State) (n : Nat) : State :=
  s.withPort { s.port with sdo := shiftOut s.port.response n }

/-- What a transaction shifts out, and the response it stores. The model's choice: log 8, 23, 34, 38. -/
def Obligations.ResponsesOnThePort : Prop :=
  (∀ (i : Instr) (bytes : List Byte) (s : State), encodeTransaction i = some bytes → i.wf = true → s.nothingDue →
    (s.operating = false ∨ s.port.straddle ≠ none →
      ∃ sdo k, Sys2Proof.Spec.clockedOut s bytes.length sdo ∧ s.freeCount ≤ k
        ∧ exec i s = .next ((s.withPort { s.port with sdo := sdo, straddle := none }).withFree k))
    ∧ (s.operating = true → s.port.straddle = none →
      ∃ t, exec i s = .next t ∧ t.port.sdo = shiftOut s.port.response bytes.length
        ∧ (bytes.head? ≠ none → bytes.head? ≠ some 0xFF → ∃ r, t.port.response = some r ∧ some r.code = bytes.head?
            ∧ r.count = Sys2Proof.Spec.nextCount s ∧ t.port.count = Sys2Proof.Spec.nextCount s
            ∧ (r.status ≠ .done → r.data = []))
        ∧ (bytes.head? = none ∨ bytes.head? = some 0xFF → t = Sys2Proof.Spec.shifted s bytes.length)))
    ∧ (∀ (r : Option Response) (n : Nat), (shiftOut r n).length = n)
    ∧ (∀ (n k : Nat), k < n → (shiftOut none n)[k]? = some (if k < 3 then 0x00 else 0xFF))
    ∧ ∀ (r : Response) (n k : Nat), k < n → (shiftOut (some r) n)[k]? = some (match k with
        | 0 => r.code
        | 1 => r.count
        | 2 => r.status.code
        | j + 3 => r.data.getD j 0xFF)

/-- STATUS. The model's choice: log 41. -/
def Obligations.StatusCommand : Prop :=
  ∀ (s : State) (rest : List Byte) (c : Chassis), s.listening →
    (s.copyValid = true → c = s.chassis) → (s.copyValid = false → c = State.reset.chassis) →
    ∃ data : List Byte,
      exec (.status rest) s
        = .next (Sys2Proof.Spec.answered (Sys2Proof.Spec.shifted s (1 + rest.length)) 0x01 .done data)
      ∧ data.length = 48
      ∧ data = [s.straps.addr.setWidth 8, s.straps.rate.setWidth 8,
          (if s.ctl.duties.isSome then 4 else 0) + (if s.copyValid then 2 else 0) + (if s.straps.autojoin then 1 else 0),
          s.ctl.station.code, s.ctl.attempts, s.ctl.cause.code, s.outputs.driven.code, s.outputs.lastKnown.code,
          c.level.code, flagByte c.halt] ++ bytes32 c.settle ++ bytes16 c.generation ++ bytes16 c.map
        ++ [byteOf (memberCode (c.record s.straps.addr)), BitVec.ofNat 8 c.table.length] ++ bytes16 c.dropped
        ++ [flagByte c.first.isSome] ++ bytes16 c.sinceFirst
        ++ [byteOf c.dropLimit, byteOf (lossCode c.loss), byteOf s.items.foundingDropLimit,
          byteOf (lossCode s.items.foundingLoss), flagByte s.log.first.isSome, BitVec.ofNat 8 s.log.next.length,
          s.log.overflow, BitVec.ofNat 8 s.queue.items.length,
          (match s.queue.inFlight with
            | some h => h.item.notice.kind + 1
            | none => 0), s.queue.loss, s.alerts.pending, s.alerts.mask]
        ++ (match s.port.clear with
          | some r => [r.outcome.code, byteOf r.scope.code, byteOf r.origin] ++ bytes32 r.reference ++ bytes32 r.settle
          | none => [0, 0, 0, 0, 0, 0, 0, 0, 0, 0, 0])

/-- READ ALERTS, and the ALERT line when a cause is set. -/
def Obligations.AlertCommand : Prop :=
  (∀ (s : State) (rest : List Byte), s.listening →
    exec (.readAlerts rest) s = .next ((Sys2Proof.Spec.answered (Sys2Proof.Spec.shifted s (1 + rest.length)) 0x02 .done
      [s.alerts.pending, s.alerts.mask]).withAlerts ⟨0, s.alerts.mask, false⟩))
    ∧ ∀ (s : State) (c : Cause),
        (s.setCause c).alerts.pending = s.alerts.pending ||| c.bit ∧ (s.setCause c).alerts.mask = s.alerts.mask
          ∧ ((s.setCause c).alerts.line = true ↔ (s.alerts.pending ||| c.bit) &&& ~~~s.alerts.mask ≠ 0)
          ∧ s.setCause c = s.withAlerts (s.setCause c).alerts

/-- READ ENTRY, READ CHASSIS FIRST and READ ROSTER. The model's choice: log 41. -/
def Obligations.ChassisReads : Prop :=
  ∀ (s : State) (rest : List Byte), s.listening →
    (s.copyValid = true →
      (∀ position : Byte, position ≤ 31 →
        exec (.readEntry (position :: rest)) s
          = .next (Sys2Proof.Spec.answered (Sys2Proof.Spec.shifted s (2 + rest.length)) 0x0F .done
              ((match s.chassis.table[position.toNat]? with
                | some x => [1, byteOf x.origin, byteOf x.source, byteOf x.severity.code] ++ bytes32 x.firstSettle
                    ++ [x.occurrences] ++ bytes32 x.detail ++ [flagByte x.absent]
                | none => List.replicate 14 0)
                ++ [BitVec.ofNat 8 s.chassis.table.length] ++ bytes32 s.chassis.settle)))
      ∧ exec (.readChassisFirst rest) s
          = .next (Sys2Proof.Spec.answered (Sys2Proof.Spec.shifted s (1 + rest.length)) 0x10 .done
              ((match s.chassis.first with
                | some x => [1, byteOf x.origin, byteOf x.source, byteOf x.severity.code] ++ bytes32 x.settle
                    ++ bytes32 x.detail
                | none => List.replicate 12 0) ++ bytes16 s.chassis.sinceFirst ++ bytes32 s.chassis.settle))
      ∧ exec (.readRoster rest) s
          = .next (Sys2Proof.Spec.answered (Sys2Proof.Spec.shifted s (1 + rest.length)) 0x11 .done
              (bytes16 s.chassis.generation ++ bytes16 s.chassis.map
                ++ allAddrs.map (fun a => match s.chassis.record a with
                  | some m => memberCode (some m) ++ 0#2 ++ m.miss
                  | none => 0)
                ++ [byteOf s.chassis.dropLimit, byteOf (lossCode s.chassis.loss), addrByte s.chassis.rosterStation]
                ++ (match s.ctl.admission with
                  | some x => [byteOf x.addr, byteOf x.total]
                  | none => [0xFF, 0])
                ++ (match s.ctl.duties with
                  | some d => [BitVec.ofNat 8 d.list.length, addrByte d.list.head?] ++ (match d.sequencer with
                      | some q => [byteOf q.addr, byteOf q.next, byteOf q.total]
                      | none => [0xFF, 0, 0])
                  | none => [0, 0xFF, 0xFF, 0, 0])
                ++ bytes32 s.chassis.settle)))
    ∧ (s.copyValid = false →
      (∀ position : Byte, position ≤ 31 →
        exec (.readEntry (position :: rest)) s
          = .next (Sys2Proof.Spec.answered (Sys2Proof.Spec.shifted s (2 + rest.length)) 0x0F .invalid []))
      ∧ exec (.readChassisFirst rest) s
          = .next (Sys2Proof.Spec.answered (Sys2Proof.Spec.shifted s (1 + rest.length)) 0x10 .invalid [])
      ∧ exec (.readRoster rest) s
          = .next (Sys2Proof.Spec.answered (Sys2Proof.Spec.shifted s (1 + rest.length)) 0x11 .invalid []))

/-- R162, R169, Table 11-6: a SET STATION item code, a value byte in its range, and the state the write leaves. -/
def Sys2Proof.Spec.stationWrite (s : State) (i : Instr) (v : Byte) (rest : List Byte) (t : State) : Prop :=
  (i = .setStationQualifyTime (v :: rest) ∧ t = s.withItems { s.items with qualifyTime := v })
    ∨ (i = .setStationJoinWait (v :: rest) ∧ v ≠ 0 ∧ t = s.withItems { s.items with joinWait := v })
    ∨ (∃ b, i = .setStationAutoRejoin (v :: rest) ∧ v = flagByte b ∧ t = s.withItems { s.items with autoRejoin := b })
    ∨ (∃ p, i = .setStationDetachedLevel (v :: rest) ∧ policyOf v = some p
        ∧ t = ((s.withItems { s.items with detachedLevel := p }).withOutputs { s.outputs with policy := p }).redrive)
    ∨ (i = .setStationAlertMask (v :: rest)
        ∧ t = (s.withItems { s.items with alertMask := v }).withAlerts
            ⟨s.alerts.pending, v, decide (s.alerts.pending &&& ~~~v ≠ 0)⟩)
    ∨ (i = .setStationFoundingDropLimit (v :: rest) ∧ 2 ≤ v ∧ v ≤ 8
        ∧ t = s.withItems { s.items with foundingDropLimit := v.setWidth 4 })
    ∨ (∃ l, i = .setStationFoundingLossSeverity (v :: rest) ∧ v = byteOf (lossCode l)
        ∧ t = s.withItems { s.items with foundingLoss := l })

/-- R162, R170, Table 11-6: a SET SOURCE item, a value byte in its range, and the state the write leaves. -/
def Sys2Proof.Spec.sourceWrite (s : State) (i : Instr) (v : Byte) (rest : List Byte) (t : State) : Prop :=
  (∃ n : Fin 32, ∃ source : Byte, source.toNat = n.val
      ∧ ((∃ c : SourceClass, i = .setSourceClass source (v :: rest) ∧ v = c.code
            ∧ t = s.withMonitor (s.monitor.setSource n { s.monitor.source n with cls := c }))
        ∨ (i = .setSourceThreshold source (v :: rest) ∧ v ≠ 0
            ∧ t = s.withMonitor (s.monitor.setSource n { s.monitor.source n with threshold := v }))))
    ∨ ∃ n : Fin 24, ∃ source : Byte, source.toNat = n.val
      ∧ ((∃ m : Mode, i = .setSourceMode source (v :: rest) ∧ modeOf v = some m
            ∧ t = (s.withMonitor (s.monitor.setLine n { s.monitor.line n with mode := m })).watchLine n)
        ∨ (∃ p : Polarity, i = .setSourcePolarity source (v :: rest) ∧ polarityOf v = some p
            ∧ t = (s.withMonitor (s.monitor.setLine n { s.monitor.line n with polarity := p })).watchLine n))

/-- SET STATION and SET SOURCE. -/
def Obligations.ConfigurationWrites : Prop :=
  ∀ (s : State) (i : Instr) (v : Byte) (rest : List Byte) (t : State), s.listening →
    (Sys2Proof.Spec.stationWrite (Sys2Proof.Spec.shifted s (3 + rest.length)) i v rest t →
      (s.ctl.station = .detached → exec i s = .next (Sys2Proof.Spec.answered t 0x03 .done []))
      ∧ (s.ctl.station ≠ .detached →
        exec i s = .next (Sys2Proof.Spec.answered (Sys2Proof.Spec.shifted s (3 + rest.length)) 0x03 .locked [])))
    ∧ (Sys2Proof.Spec.sourceWrite (Sys2Proof.Spec.shifted s (4 + rest.length)) i v rest t →
      (s.ctl.station = .detached → exec i s = .next (Sys2Proof.Spec.answered t 0x04 .done []))
      ∧ (s.ctl.station ≠ .detached →
        exec i s = .next (Sys2Proof.Spec.answered (Sys2Proof.Spec.shifted s (4 + rest.length)) 0x04 .locked [])))

/-- Line trackers, and a line watched anew. -/
def Obligations.LinesAndTheirTrackers : Prop :=
  ((∀ (s : State) (n : Fin 24) (l : Line) (fin : BitVec 24), s.ready → s.monitor.line n = l →
      (∀ k : Fin 24, fin.getLsbD k.val = (if k = n then !s.monitor.fin.getLsbD n.val else s.monitor.fin.getLsbD k.val)) →
      (s.monitor.fin.getLsbD n.val ≠ l.polarity.activeLevel → l.tracker = .inactive →
        (s.items.qualifyTime = 0 →
          exec (.lineActive n) s
            = .next ((s.withMonitor ({ s.monitor with fin := fin }.setLine n (Sys2Proof.Spec.held l))).assertSource
                (sourceOfLine n) (fin.setWidth 32)))
        ∧ (s.items.qualifyTime ≠ 0 →
          exec (.lineActive n) s
            = .next (s.withMonitor ({ s.monitor with fin := fin }.setLine n
                { l with tracker := .qualifying, timer := some s.items.qualifyTime }))))
      ∧ (s.monitor.fin.getLsbD n.val = l.polarity.activeLevel →
        exec (.lineInactive n) s
          = .next (s.withMonitor ({ s.monitor with fin := fin }.setLine n { l with tracker := .inactive, timer := none })))
      ∧ (l.tracker = .qualifying → l.timer ≠ none →
        exec (.qualificationExpiry n) s
          = .next ((s.withMonitor (s.monitor.setLine n (Sys2Proof.Spec.held l))).assertSource (sourceOfLine n)
              (s.monitor.fin.setWidth 32))))
      ∧ ∀ (m : Monitor) (n k : Fin 24) (l : Line),
          (m.setLine n l).line k = (if k = n then l else m.line k)
            ∧ (m.setLine n l).sources = m.sources ∧ (m.setLine n l).fin = m.fin)
    ∧ (∀ (s : State) (n : Fin 24) (l : Line), s.monitor.line n = l →
      (s.monitor.fin.getLsbD n.val ≠ l.polarity.activeLevel →
        s.watchLine n = s.withMonitor (s.monitor.setLine n { l with tracker := .inactive, timer := none }))
      ∧ (s.monitor.fin.getLsbD n.val = l.polarity.activeLevel → l.mode = .edge →
        s.watchLine n = s.withMonitor (s.monitor.setLine n (Sys2Proof.Spec.held l)))
      ∧ (s.monitor.fin.getLsbD n.val = l.polarity.activeLevel → l.mode = .level →
        (s.items.qualifyTime ≠ 0 →
          s.watchLine n = s.withMonitor (s.monitor.setLine n
            { l with tracker := .qualifying, timer := some s.items.qualifyTime }))
        ∧ (s.items.qualifyTime = 0 →
          s.watchLine n = (s.withMonitor (s.monitor.setLine n (Sys2Proof.Spec.held l))).assertSource (sourceOfLine n)
            (s.monitor.fin.setWidth 32))))

/-- Missing or out-of-range arguments, and unknown codes, are answered BAD_ARG. -/
def Obligations.BadArguments : Prop :=
  ∀ (s : State) (i : Instr) (bytes : List Byte) (code : Byte), s.listening → i.wf = true →
    encodeTransaction i = some (code :: bytes) →
    ((∃ b, i = .commandCodeNamesNoCommand b) ∧ code ≠ 0xFF)
      ∨ (code = 0x03 ∧ (bytes.length < 2 ∨ ∃ item v r, bytes = item :: v :: r
          ∧ ((item = 0x01 ∧ v = 0) ∨ (item = 0x02 ∧ 2 ≤ v) ∨ (item = 0x03 ∧ 3 ≤ v)
              ∨ (item = 0x05 ∧ (v < 2 ∨ 8 < v)) ∨ (item = 0x06 ∧ 4 ≤ v))))
      ∨ (code = 0x04 ∧ (bytes.length < 3 ∨ ∃ source item v r, bytes = source :: item :: v :: r
          ∧ (32 ≤ source ∨ (item = 0x00 ∧ 5 ≤ v) ∨ (item = 0x01 ∧ (24 ≤ source ∨ 2 ≤ v))
              ∨ (item = 0x02 ∧ (24 ≤ source ∨ 2 ≤ v)) ∨ (item = 0x03 ∧ v = 0))))
      ∨ (code = 0x07 ∧ (bytes.length < 5 ∨ ∃ source r, bytes = source :: r ∧ (source < 24 ∨ 29 < source)))
      ∨ ((code = 0x08 ∨ code = 0x0D ∨ code = 0x0E) ∧ (bytes = [] ∨ ∃ source r, bytes = source :: r ∧ 32 ≤ source))
      ∨ (code = 0x09 ∧ (bytes = [] ∨ ∃ source r, bytes = source :: r ∧ 32 < source))
      ∨ (code = 0x0A ∧ (bytes.length < 6 ∨ ∃ scope origin r, bytes = scope :: origin :: r ∧ (3 ≤ scope ∨ 16 ≤ origin)))
      ∨ (code = 0x0B ∧ (bytes = [] ∨ ∃ selector r, bytes = selector :: r ∧ 0x07 < selector ∧ selector ≠ 0x10))
      ∨ (code = 0x0F ∧ (bytes = [] ∨ ∃ position r, bytes = position :: r ∧ 31 < position)) →
    exec i s = .next (Sys2Proof.Spec.answered (Sys2Proof.Spec.shifted s (1 + bytes.length)) code .badArg [])

/-- READ COUNTER, RAISE, RELEASE SOURCE and CLEAR COUNTER. The model's choice: log 41. -/
def Obligations.SourceCommands : Prop :=
  (∀ (s : State) (n : Fin 32) (rest : List Byte) (x : Source), s.listening → s.monitor.source n = x →
      ∃ line : Byte,
        exec (.readCounter (BitVec.ofNat 8 n.val :: rest)) s
          = .next (Sys2Proof.Spec.answered (Sys2Proof.Spec.shifted s (2 + rest.length)) 0x0D .done
              [x.cls.code, flagByte x.latched, x.counter, flagByte x.flag, line])
        ∧ (24 ≤ n.val → line = 0)
        ∧ ∀ (k : Fin 24) (l : Line), k.val = n.val → s.monitor.line k = l →
            line = (if s.monitor.fin.getLsbD k.val = l.polarity.activeLevel then 0x80 else 0x00) + l.tracker.code)
    ∧ (∀ (s : State) (n : Fin 32) (source : Byte), s.listening → source.toNat = n.val →
      (∀ (a b c d : Byte) (rest : List Byte), 24 ≤ n.val → n.val ≤ 29 →
        exec (.raise (source :: a :: b :: c :: d :: rest)) s
          = .next (Sys2Proof.Spec.answered ((Sys2Proof.Spec.shifted s (6 + rest.length)).assertSource n (a ++ b ++ c ++ d))
              0x07 .done []))
      ∧ (∀ rest : List Byte,
        (∀ (k : Fin 24) (l : Line), k.val = n.val → s.monitor.line k = l → l.mode = .edge
          ∨ s.monitor.fin.getLsbD k.val ≠ l.polarity.activeLevel) →
        exec (.releaseSource (source :: rest)) s
          = .next (Sys2Proof.Spec.answered ((Sys2Proof.Spec.shifted s (2 + rest.length)).withMonitor
              (s.monitor.setSource n { s.monitor.source n with latched := false })) 0x08 .done []))
      ∧ (∀ (rest : List Byte) (k : Fin 24) (l : Line), k.val = n.val → s.monitor.line k = l → l.mode = .level →
        s.monitor.fin.getLsbD k.val = l.polarity.activeLevel →
        exec (.releaseSource (source :: rest)) s
          = .next (Sys2Proof.Spec.answered (Sys2Proof.Spec.shifted s (2 + rest.length)) 0x08 .active []))
      ∧ (∀ rest : List Byte,
        exec (.clearCounter (source :: rest)) s
          = .next (Sys2Proof.Spec.answered ((Sys2Proof.Spec.shifted s (2 + rest.length)).withMonitor
              (s.monitor.setSource n { s.monitor.source n with counter := 0, flag := false })) 0x0E .done [])))

/-- JOIN and LEAVE on the port. -/
def Obligations.JoinAndLeaveCommands : Prop :=
  ∀ (s : State) (rest : List Byte), s.listening →
    (s.ctl.station = .detached →
      exec (.join rest) s = .next (Sys2Proof.Spec.answered
        ((Sys2Proof.Spec.shifted s (1 + rest.length)).withCtl (Sys2Proof.Spec.joining s.ctl)) 0x05 .done []))
    ∧ (s.ctl.station ≠ .detached →
      exec (.join rest) s
        = .next (Sys2Proof.Spec.answered (Sys2Proof.Spec.shifted s (1 + rest.length)) 0x05 .wrongState []))
    ∧ (s.ctl.station ≠ .member →
      exec (.leave rest) s
        = .next (Sys2Proof.Spec.answered (Sys2Proof.Spec.shifted s (1 + rest.length)) 0x06 .wrongState []))
    ∧ (s.ctl.station = .member →
      ((∃ i ∈ s.queue.items, i.notice = .leave) →
        exec (.leave rest) s
          = .next (Sys2Proof.Spec.answered (Sys2Proof.Spec.shifted s (1 + rest.length)) 0x06 .done []))
      ∧ ((∀ i ∈ s.queue.items, i.notice ≠ .leave) →
        (s.queue.count < 8 →
          ∃ w, Sys2Proof.Spec.placed ⟨.leave, false, s.queue.nextAge⟩ s.queue.waiting w
            ∧ exec (.leave rest) s = .next (Sys2Proof.Spec.answered
                ((Sys2Proof.Spec.shifted s (1 + rest.length)).withQueue
                  { s.queue with waiting := w, nextAge := s.queue.nextAge + 1 }) 0x06 .done []))
        ∧ (8 ≤ s.queue.count →
          exec (.leave rest) s
            = .next (Sys2Proof.Spec.answered (Sys2Proof.Spec.shifted s (1 + rest.length)) 0x06 .busy []))))

/-- RESOLVE and REQUEST CLEAR on the port. -/
def Obligations.ResolveAndRequestClearCommands : Prop :=
  (∀ (s : State) (source : Byte) (rest : List Byte), s.listening → source ≤ 32 →
      ((∃ n : Fin 32, source.toNat = n.val ∧ (s.monitor.source n).latched = true) →
        exec (.resolve (source :: rest)) s
          = .next (Sys2Proof.Spec.answered (Sys2Proof.Spec.shifted s (2 + rest.length)) 0x09 .active []))
      ∧ ((∀ n : Fin 32, source.toNat = n.val → (s.monitor.source n).latched = false) →
        ((∃ i ∈ s.queue.waiting, i.notice = .resolve (source.setWidth 6)) →
          exec (.resolve (source :: rest)) s
            = .next (Sys2Proof.Spec.answered (Sys2Proof.Spec.shifted s (2 + rest.length)) 0x09 .done []))
        ∧ ((∀ i ∈ s.queue.waiting, i.notice ≠ .resolve (source.setWidth 6)) →
          (s.queue.count < 8 →
            ∃ w, Sys2Proof.Spec.placed ⟨.resolve (source.setWidth 6), false, s.queue.nextAge⟩ s.queue.waiting w
              ∧ exec (.resolve (source :: rest)) s = .next (Sys2Proof.Spec.answered
                  ((Sys2Proof.Spec.shifted s (2 + rest.length)).withQueue
                    { s.queue with waiting := w, nextAge := s.queue.nextAge + 1 }) 0x09 .done []))
          ∧ (8 ≤ s.queue.count → (∀ i ∈ s.queue.waiting, i.notice ≠ .leave) →
            exec (.resolve (source :: rest)) s
              = .next (Sys2Proof.Spec.answered (Sys2Proof.Spec.shifted s (2 + rest.length)) 0x09 .busy []))
          ∧ (∀ l last, 8 ≤ s.queue.count → s.queue.waiting = l ++ [last] → (∀ x ∈ l, Sys2Proof.Spec.before x last) →
              last.notice = .leave →
            ∃ w, Sys2Proof.Spec.placed ⟨.resolve (source.setWidth 6), false, s.queue.nextAge⟩ l w
              ∧ exec (.resolve (source :: rest)) s = .next (Sys2Proof.Spec.answered
                  (((Sys2Proof.Spec.shifted s (2 + rest.length)).withQueue
                    { s.queue with
                      waiting := w
                      nextAge := s.queue.nextAge + 1
                      loss := Sys2Proof.Spec.bump s.queue.loss }).setCause .queueLoss) 0x09 .done [])))))
    ∧ (∀ (s : State) (scope : Scope) (origin : Addr) (a b c d : Byte) (rest : List Byte) (n : Notice), s.listening →
      n = (match scope with
        | .first => .clear .first 0 (a ++ b ++ c ++ d)
        | .halt => .clear .halt 0 0
        | .origin => .clear .origin origin 0) →
      ∀ i : Instr, i = .requestClear (byteOf scope.code :: byteOf origin :: a :: b :: c :: d :: rest) →
      (s.ctl.station ≠ .member →
        exec i s = .next (Sys2Proof.Spec.answered (Sys2Proof.Spec.shifted s (7 + rest.length)) 0x0A .wrongState []))
      ∧ (s.ctl.station = .member →
        (s.queue.count < 8 →
          ∃ w, Sys2Proof.Spec.placed ⟨n, false, s.queue.nextAge⟩ s.queue.waiting w
            ∧ exec i s = .next (Sys2Proof.Spec.answered ((Sys2Proof.Spec.shifted s (7 + rest.length)).withQueue
                { s.queue with waiting := w, nextAge := s.queue.nextAge + 1 }) 0x0A .done []))
        ∧ (8 ≤ s.queue.count → (∀ x ∈ s.queue.waiting, x.notice.urgency = 1) →
          exec i s = .next (Sys2Proof.Spec.answered (Sys2Proof.Spec.shifted s (7 + rest.length)) 0x0A .busy []))
        ∧ (∀ l last, 8 ≤ s.queue.count → s.queue.waiting = l ++ [last] → (∀ x ∈ l, Sys2Proof.Spec.before x last) →
            1 < last.notice.urgency →
          ∃ w, Sys2Proof.Spec.placed ⟨n, false, s.queue.nextAge⟩ l w
            ∧ ((∀ r, last.notice ≠ .fault r) ∨ last.linked = false → exec i s = .next (Sys2Proof.Spec.answered (((Sys2Proof.Spec.shifted s (7 + rest.length)).withQueue
                { s.queue with
                  waiting := w
                  nextAge := s.queue.nextAge + 1
                  loss := Sys2Proof.Spec.bump s.queue.loss }).setCause .queueLoss) 0x0A .done []))
            ∧ (∀ r, last.notice = .fault r → last.linked = true → exec i s = .next
                (Sys2Proof.Spec.answered ((((Sys2Proof.Spec.shifted s (7 + rest.length)).withQueue
                  { ({ s.queue with waiting := w, nextAge := s.queue.nextAge + 1 } : Queue).unlink r.source with
                    loss := Sys2Proof.Spec.bump s.queue.loss }).withLog (s.log.setState r.source .unsent)).setCause
                      .queueLoss) 0x0A .done [])))))

/-- READ LOCAL and CLEAR LOCAL FIRST. -/
def Obligations.LocalLogCommands : Prop :=
  (∀ (s : State) (rest : List Byte), s.listening →
      ∀ (selector : Byte) (r : Option Record),
      (selector = 0x10 ∧ r = s.log.first) ∨ (selector ≤ 0x07 ∧ r = s.log.next[selector.toNat]?) →
      exec (.readLocal (selector :: rest)) s
        = .next (Sys2Proof.Spec.answered (Sys2Proof.Spec.shifted s (2 + rest.length)) 0x0B .done
            ((match r with
              | some x => [1] ++ bytes16 x.number ++ [byteOf x.source, byteOf x.severity.code, x.occurrences]
                  ++ bytes32 x.detail ++ [x.state.code] ++ bytes32 x.state.settle
              | none => List.replicate 15 0) ++ [BitVec.ofNat 8 s.log.next.length, s.log.overflow])))
    ∧ (∀ (s : State) (rest : List Byte), s.listening →
      (s.log.first = none →
        exec (.clearLocalFirst rest) s
          = .next (Sys2Proof.Spec.answered (Sys2Proof.Spec.shifted s (1 + rest.length)) 0x0C .done []))
      ∧ (∀ r, s.log.first = some r → s.log.next = [] →
        exec (.clearLocalFirst rest) s
          = .next (Sys2Proof.Spec.answered (((Sys2Proof.Spec.shifted s (1 + rest.length)).withLog
              { s.log with first := none }).withQueue (s.queue.unlink (r.source.setWidth 6))) 0x0C .done []))
      ∧ (∀ r x more, s.log.first = some r → s.log.next = x :: more →
        exec (.clearLocalFirst rest) s
          = .next (Sys2Proof.Spec.answered ((((Sys2Proof.Spec.shifted s (1 + rest.length)).withLog
              { s.log with first := some x, next := more }).withQueue
                (s.queue.unlink (r.source.setWidth 6))).setCause .localFirst) 0x0C .done []))
      ∧ ∀ (q : Queue) (source : BitVec 6),
          (q.unlink source).waiting = q.waiting.map (Sys2Proof.Spec.relinked source true)
            ∧ (q.unlink source).inFlight = Sys2Proof.Spec.metHead q source true
            ∧ (q.unlink source).loss = q.loss)
end

