-- ==== Sys2Proof/Laws/Queue.lean ====
section
/-! SUPPORT. What each operation of the queue and of the log keeps: capacity, order and uniqueness (R61, R138). -/

namespace Sys2Proof.Machine

/-! ### Placing an item -/

theorem placeItem_perm (i : Item) (l : List Item) : (placeItem i l).Perm (i :: l) := by
  induction l with
  | nil => exact List.Perm.refl _
  | cons x rest ih =>
    unfold placeItem
    split
    · exact List.Perm.refl _
    · exact (ih.cons x).trans (List.Perm.swap i x rest)

@[simp] theorem placeItem_length (i : Item) (l : List Item) : (placeItem i l).length = l.length + 1 :=
  (placeItem_perm i l).length_eq

theorem mem_placeItem (i x : Item) (l : List Item) : x ∈ placeItem i l ↔ x = i ∨ x ∈ l := by
  rw [(placeItem_perm i l).mem_iff, List.mem_cons]

theorem ahead_iff (a b : Item) : a.ahead b = true ↔
    a.notice.urgency < b.notice.urgency ∨ (a.notice.urgency = b.notice.urgency ∧ a.age < b.age) := by
  simp [Item.ahead]

theorem ahead_false_iff (a b : Item) : a.ahead b = false ↔
    ¬(a.notice.urgency < b.notice.urgency ∨ (a.notice.urgency = b.notice.urgency ∧ a.age < b.age)) := by
  rw [← ahead_iff]; simp

/-- The waiting items in order (R61). -/
abbrev Ordered (l : List Item) : Prop := l.Pairwise (fun a b => b.ahead a = false)

/-- No two FAULT notices for one source (R61). -/
abbrev Apart (l : List Item) : Prop := l.Pairwise (fun a b => ¬a.clash b)

theorem placeItem_ordered (i : Item) (l : List Item) (h : Ordered l) : Ordered (placeItem i l) := by
  induction l with
  | nil => exact List.pairwise_singleton _ _
  | cons x rest ih =>
    unfold placeItem
    rw [Ordered, List.pairwise_cons] at h
    split
    · next hx =>
      rw [ahead_iff] at hx
      refine List.Pairwise.cons (fun y hy => ?_) (List.Pairwise.cons h.1 h.2)
      rw [ahead_false_iff]
      rcases List.mem_cons.1 hy with rfl | hy
      · omega
      · have := h.1 y hy
        rw [ahead_false_iff] at this
        omega
    · next hx =>
      refine List.Pairwise.cons (fun y hy => ?_) (ih h.2)
      rcases (mem_placeItem i y rest).1 hy with rfl | hy
      · simpa using hx
      · exact h.1 y hy

theorem clash_symm {a b : Item} (h : ¬a.clash b) : ¬b.clash a := fun ⟨n, x, y⟩ => h ⟨n, y, x⟩

theorem placeItem_apart (i : Item) (l : List Item) (h : Apart l) (hi : ∀ x ∈ l, ¬i.clash x) :
    Apart (placeItem i l) :=
  ((placeItem_perm i l).pairwise_iff clash_symm).2 (List.Pairwise.cons hi h)

/-- An item that is no FAULT clashes with none. -/
theorem not_clash {i x : Item} (h : ∀ n, i.notice.isFault n = false) : ¬i.clash x := by
  rintro ⟨n, hn, -⟩
  rw [h n] at hn
  exact absurd hn (by decide)

/-- A FAULT clashes with the FAULTs of its own source alone. -/
theorem not_clash_fault {i x : Item} {r : Report} (hr : i.notice = .fault r)
    (h : x.notice.isFault r.source = false) : ¬i.clash x := by
  rintro ⟨n, hn, hx⟩
  rw [hr] at hn
  simp only [Notice.isFault, decide_eq_true_eq] at hn
  rw [← hn, h] at hx
  exact absurd hx (by decide)

theorem isFault_source {n : Notice} {r : Report} {m : BitVec 6} (h : n = .fault r) (hm : n.isFault m = true) :
    r.source = m := by
  subst h
  simpa [Notice.isFault] using hm

/-- What the others are to an item of a list without clashes. -/
theorem erase_apart {l : List Item} {x : Item} (hm : x ∈ l) (h : Apart l) {y : Item} (hy : y ∈ l.erase x) :
    ¬x.clash y := by
  have := ((List.perm_cons_erase hm).pairwise_iff clash_symm).1 h
  exact (List.pairwise_cons.1 this).1 y hy

theorem lastInOrder_mem {l : List Item} {w : Item} (h : lastInOrder l = some w) : w ∈ l := by
  induction l generalizing w with
  | nil => simp [lastInOrder] at h
  | cons x rest ih =>
    unfold lastInOrder at h
    split at h
    · simp_all
    · next y hy =>
      split at h
      · simp only [Option.some.injEq] at h
        subst h
        exact List.mem_cons_of_mem _ (ih hy)
      · simp_all

/-! ### The queue -/

/-- One when an item is in flight. -/
def Queue.flying (q : Queue) : Nat := if q.inFlight.isSome then 1 else 0

theorem Queue.count_eq (q : Queue) : q.count = q.flying + q.waiting.length := by
  unfold Queue.count Queue.items Queue.flying
  cases q.inFlight <;> simp [Nat.add_comm]

/-- A queue whose waiting items are some of another's, in their order, and that has no more in flight. -/
theorem Queue.ok_sublist {p q : Queue} (h : q.ok) (hs : p.waiting.Sublist q.waiting) (hf : p.flying ≤ q.flying) :
    p.ok := by
  refine ⟨?_, h.2.1.sublist hs, h.2.2.sublist hs⟩
  have h1 := h.1
  have := hs.length_le
  rw [Queue.count_eq] at *
  omega

theorem unlink_notice (n : BitVec 6) (i : Item) : (i.unlink n).notice = i.notice := by
  unfold Item.unlink; split <;> rfl

theorem unlink_age (n : BitVec 6) (i : Item) : (i.unlink n).age = i.age := by
  unfold Item.unlink; split <;> rfl

theorem Queue.ok_unlink (q : Queue) (n : BitVec 6) (h : q.ok) : (q.unlink n).ok := by
  refine ⟨?_, ?_, ?_⟩
  · have := h.1
    simp only [Queue.count_eq, Queue.flying, Queue.unlink, List.length_map, Option.isSome_map] at *
    exact this
  · simp only [Queue.unlink, List.pairwise_map]
    refine h.2.1.imp (fun {a b} hab => ?_)
    simpa only [Item.ahead, unlink_notice, unlink_age] using hab
  · simp only [Queue.unlink, List.pairwise_map]
    refine h.2.2.imp (fun {a b} hab => ?_)
    simpa only [Item.clash, unlink_notice] using hab

theorem Queue.ok_cancelResolve (q : Queue) (n : BitVec 6) (h : q.ok) : (q.cancelResolve n).ok :=
  Queue.ok_sublist h List.filter_sublist (Nat.le_refl _)

/-- What an insertion keeps, of a notice that clashes with no waiting item. -/
theorem Queue.ok_insert (q : Queue) (n : Notice) (linked : Bool) (h : q.ok)
    (hn : ∀ k, ∀ x ∈ q.waiting, ¬({ notice := n, linked := linked, age := k } : Item).clash x) :
    (q.insert n linked).queue.ok := by
  unfold Queue.insert
  dsimp only
  split
  · next hlt =>
    refine ⟨?_, placeItem_ordered _ _ h.2.1, placeItem_apart _ _ h.2.2 (hn _)⟩
    simp only [Queue.count_eq, Queue.flying, placeItem_length, queueCapacity] at *
    omega
  · split
    · exact h
    · next w hw =>
      split
      · have hm := lastInOrder_mem hw
        have hpos := List.length_pos_of_mem hm
        have hs := List.erase_sublist (a := w) (l := q.waiting)
        refine ⟨?_, placeItem_ordered _ _ (h.2.1.sublist hs),
          placeItem_apart _ _ (h.2.2.sublist hs) (fun x hx => hn _ x (hs.subset hx))⟩
        have h1 := h.1
        simp only [Queue.count_eq, Queue.flying, placeItem_length, List.length_erase_of_mem hm] at *
        omega
      · exact h

/-- What placing an item in another's stead keeps, for an item of the same source. -/
theorem replace_ok {l : List Item} {old new : Item} {m : BitVec 6} {r : Report} (hm : old ∈ l)
    (ho : Ordered l) (ha : Apart l) (hold : old.notice.isFault m = true) (hnew : new.notice = .fault r)
    (hr : r.source = m) :
    Ordered (placeItem new (l.erase old)) ∧ Apart (placeItem new (l.erase old)) := by
  have hs := List.erase_sublist (a := old) (l := l)
  refine ⟨placeItem_ordered _ _ (ho.sublist hs), placeItem_apart _ _ (ha.sublist hs) (fun x hx => ?_)⟩
  refine not_clash_fault hnew ?_
  rw [hr]
  cases hx' : x.notice.isFault m with
  | false => rfl
  | true => exact absurd ⟨m, hold, hx'⟩ (erase_apart hm ha hx)

theorem Queue.ok_mergeInto (q : Queue) (old : Item) (a b : Report) (l : Bool) (hm : old ∈ q.waiting)
    (ho : old.notice = .fault a) (h : q.ok) : (q.mergeInto old a b l).ok := by
  have hr := replace_ok (old := old) (new := { notice := .fault (a.merge b l), linked := l || old.linked, age := old.age })
    hm h.2.1 h.2.2 (m := a.source) (by rw [ho]; simp [Notice.isFault]) rfl rfl
  refine ⟨?_, hr⟩
  have hpos := List.length_pos_of_mem hm
  have h1 := h.1
  simp only [Queue.count_eq, Queue.flying, Queue.mergeInto, placeItem_length, List.length_erase_of_mem hm] at *
  omega

theorem Queue.ok_offerFault (q : Queue) (r : Report) (linked : Bool) (h : q.ok) :
    (q.offerFault r linked).queue.ok := by
  unfold Queue.offerFault
  have hc : (if linked = true then (q.cancelResolve r.source).unlink r.source else q.cancelResolve r.source).ok := by
    have := q.ok_cancelResolve r.source h
    split
    · exact Queue.ok_unlink _ _ this
    · exact this
  generalize (if linked = true then (q.cancelResolve r.source).unlink r.source
    else q.cancelResolve r.source) = p at hc
  dsimp only
  split
  · next old hold =>
    have hm := List.mem_of_find?_eq_some hold
    have hf := List.find?_some hold
    split
    · next a ha => exact Queue.ok_mergeInto _ _ _ _ _ hm ha hc
    · next ha => rw [ha] at hf; exact absurd hf (by simp [Notice.isFault])
    · next ha => rw [ha] at hf; exact absurd hf (by simp [Notice.isFault])
    · next ha => rw [ha] at hf; exact absurd hf (by simp [Notice.isFault])
  · next hnone =>
    refine Queue.ok_insert _ _ _ hc (fun k x hx => not_clash_fault rfl ?_)
    have := List.find?_eq_none.1 hnone x hx
    simpa using this

theorem Queue.ok_offerResolve (q : Queue) (n : BitVec 6) (h : q.ok) : (q.offerResolve n).queue.ok := by
  unfold Queue.offerResolve
  split
  · exact h
  · exact Queue.ok_insert _ _ _ h (fun _ _ _ => not_clash (fun _ => rfl))

theorem Queue.ok_offerLeave (q : Queue) (h : q.ok) : q.offerLeave.queue.ok := by
  unfold Queue.offerLeave
  split
  · exact h
  · exact Queue.ok_insert _ _ _ h (fun _ _ _ => not_clash (fun _ => rfl))

theorem Queue.ok_offerClear (q : Queue) (sc : Scope) (o : Addr) (w : Word) (h : q.ok) :
    (q.offerClear sc o w).queue.ok :=
  Queue.ok_insert _ _ _ h (fun _ _ _ => not_clash (fun _ => rfl))

theorem Queue.ok_lose (q : Queue) (h : q.ok) : q.lose.ok := h

theorem Queue.ok_modifyHead (q : Queue) (f : Head → Head) (h : q.ok) : (q.modifyHead f).ok :=
  Queue.ok_sublist h (List.Sublist.refl _) (by simp [Queue.flying, Queue.modifyHead])

theorem Queue.ok_startHead (q : Queue) (h : q.ok) : q.startHead.ok := by
  unfold Queue.startHead
  split
  · exact h
  · exact h
  · next i rest h1 h2 =>
    have hs : rest.Sublist q.waiting := by rw [h2]; exact List.sublist_cons_self _ _
    refine ⟨?_, h.2.1.sublist hs, h.2.2.sublist hs⟩
    have h3 := h.1
    simp only [Queue.count, Queue.items, h1, h2, Head.start] at *
    exact h3

theorem rejoinAmong_length (i : Item) (l : List Item) : (rejoinAmong i l).length ≤ l.length + 1 := by
  unfold rejoinAmong
  split
  · split
    · next x hx =>
      have hm := List.mem_of_find?_eq_some hx
      have hpos := List.length_pos_of_mem hm
      split <;> simp only [placeItem_length, List.length_erase_of_mem hm] <;> omega
    · simp
  all_goals simp

theorem rejoinAmong_ok (i : Item) (l : List Item) (ho : Ordered l) (ha : Apart l) :
    Ordered (rejoinAmong i l) ∧ Apart (rejoinAmong i l) := by
  unfold rejoinAmong
  split
  · next r hi =>
    split
    · next x hx =>
      have hm := List.mem_of_find?_eq_some hx
      have hf := List.find?_some hx
      split
      · exact replace_ok hm ho ha hf rfl rfl
      · next e => rw [e] at hf; exact absurd hf (by simp [Notice.isFault])
      · next e => rw [e] at hf; exact absurd hf (by simp [Notice.isFault])
      · next e => rw [e] at hf; exact absurd hf (by simp [Notice.isFault])
    · next hnone =>
      refine ⟨placeItem_ordered _ _ ho, placeItem_apart _ _ ha (fun x hx => not_clash_fault hi ?_)⟩
      simpa using List.find?_eq_none.1 hnone x hx
  all_goals
    next hi =>
      exact ⟨placeItem_ordered _ _ ho, placeItem_apart _ _ ha (fun _ _ => not_clash (fun _ => by rw [hi]; rfl))⟩

theorem returnAmong_length (i : Item) (l : List Item) : (returnAmong i l).length ≤ l.length + 1 := by
  unfold returnAmong
  split
  · next n _ =>
    split
    · omega
    · have h1 := rejoinAmong_length i (l.filter (fun x => !x.notice.isResolve n))
      have h2 := List.length_filter_le (fun x : Item => !x.notice.isResolve n) l
      omega
  all_goals exact rejoinAmong_length i l

theorem returnAmong_ok (i : Item) (l : List Item) (ho : Ordered l) (ha : Apart l) :
    Ordered (returnAmong i l) ∧ Apart (returnAmong i l) := by
  unfold returnAmong
  split
  · next n _ =>
    split
    · exact ⟨ho, ha⟩
    · have hs := List.filter_sublist (p := fun x : Item => !x.notice.isResolve n) (l := l)
      exact rejoinAmong_ok i _ (ho.sublist hs) (ha.sublist hs)
  all_goals exact rejoinAmong_ok i l ho ha

/-- A head that goes back keeps the queue in order when its place does. -/
theorem Queue.ok_headBack (among : Item → List Item → List Item) (q : Queue) (h : q.ok)
    (hl : ∀ i l, (among i l).length ≤ l.length + 1)
    (hk : ∀ i l, Ordered l → Apart l → Ordered (among i l) ∧ Apart (among i l)) : (q.headBack among).ok := by
  unfold Queue.headBack
  split
  · exact h
  · next x hx =>
    refine ⟨?_, hk _ _ h.2.1 h.2.2⟩
    have := hl x.item q.waiting
    have h1 := h.1
    simp only [Queue.count_eq, Queue.flying, hx, Option.isSome_none, Option.isSome_some] at *
    simp only [Bool.false_eq_true, if_false, if_true] at *
    omega

theorem Queue.ok_returnHead (q : Queue) (h : q.ok) : q.returnHead.ok :=
  q.ok_headBack _ h returnAmong_length returnAmong_ok

theorem Queue.ok_retryHead (q : Queue) (h : q.ok) : q.retryHead.ok :=
  q.ok_headBack _ h rejoinAmong_length rejoinAmong_ok

theorem Queue.ok_settleHead (q : Queue) (h : q.ok) : q.settleHead.ok :=
  Queue.ok_sublist h (List.Sublist.refl _) (by simp [Queue.flying, Queue.settleHead])

theorem Queue.ok_boardReset (q : Queue) : q.boardReset.ok :=
  ⟨by simp [Queue.boardReset, Queue.count, Queue.items], List.Pairwise.nil, List.Pairwise.nil⟩

/-! ### The log -/

/-- A change of single records that keeps their sources. -/
theorem Log.ok_modify (l : Log) (n : BitVec 5) (f : Record → Record) (hf : ∀ r, (f r).source = r.source)
    (h : l.ok) : (l.modify n f).ok := by
  have key : ∀ x : List Record, (x.map (fun r => if r.source = n then f r else r)).map Record.source
      = x.map Record.source := by
    intro x
    rw [List.map_map]
    refine List.map_congr_left (fun r _ => ?_)
    simp only [Function.comp]
    split
    · exact hf r
    · rfl
  refine ⟨by simpa [Log.modify] using h.1, ?_, ?_⟩
  · have hs : ((l.modify n f).records).map Record.source = l.records.map Record.source := by
      unfold Log.records Log.modify
      cases l.first with
      | none => exact key l.next
      | some r => exact key (r :: l.next)
    rw [hs]
    exact h.2.1
  · intro hn
    have : l.first = none := by simpa [Log.modify] using hn
    simp [Log.modify, h.2.2 this]

theorem Log.ok_setState (l : Log) (n : BitVec 6) (st : LocalState) (h : l.ok) : (l.setState n st).ok := by
  unfold Log.setState
  split
  · exact Log.ok_modify _ _ _ (fun _ => rfl) h
  · exact h

theorem Log.find_none {l : Log} {n : BitVec 5} (h : l.find n = none) : n ∉ l.records.map Record.source := by
  intro hm
  obtain ⟨r, hr, hs⟩ := List.mem_map.1 hm
  unfold Log.find at h
  unfold Log.records at hr
  split at h
  · next x hx =>
    rw [hx] at hr
    split at h
    · exact absurd h (by simp)
    · next hne =>
      rcases List.mem_cons.1 hr with rfl | hr
      · exact hne hs
      · exact absurd hs (by simpa using List.find?_eq_none.1 h r hr)
  · next hx =>
    rw [hx] at hr
    exact absurd hs (by simpa using List.find?_eq_none.1 h r hr)

theorem Log.ok_take (l : Log) (n : BitVec 5) (sv : Severity) (d : Word) (h : l.ok) : (l.take n sv d).log.ok := by
  unfold Log.take
  dsimp only
  split
  · next hf =>
    refine ⟨h.1, ?_, fun e => absurd e (by simp)⟩
    simp [Log.records, h.2.2 hf]
  · next r hf =>
    split
    · exact Log.ok_modify _ _ _ (fun _ => rfl) h
    · next hnone =>
      split
      · next hlt =>
        have hd := h.2.1
        have hnot := Log.find_none hnone
        simp only [nextCapacity] at hlt
        simp only [Log.records, hf] at hd hnot
        refine ⟨by simp; omega, ?_, fun e => absurd e (by simp [hf])⟩
        simp only [Log.records, hf, List.map_cons, List.map_append, List.map_nil]
        rw [← List.cons_append]
        refine List.Nodup.append hd (List.nodup_singleton _) ?_
        intro a ha hb
        rw [List.mem_singleton] at hb
        subst hb
        exact hnot ha
      · exact h

theorem Log.ok_promote (l : Log) (h : l.ok) : l.promote.ok := by
  unfold Log.promote
  split
  · next hn => exact ⟨h.1, by simp [Log.records, hn], fun _ => hn⟩
  · next r rest hn =>
    have h1 := h.1
    have h2 := h.2.1
    rw [hn] at h1
    refine ⟨by simp at h1 ⊢; omega, ?_, fun e => absurd e (by simp)⟩
    show ((r :: rest).map Record.source).Nodup
    unfold Log.records at h2
    split at h2
    · rw [hn] at h2
      exact (List.nodup_cons.1 h2).2
    · rw [hn] at h2
      exact h2

theorem boardReset_source (r : Record) : r.boardReset.source = r.source := by
  unfold Record.boardReset
  split <;> rfl

theorem Log.ok_boardReset (l : Log) (h : l.ok) : l.boardReset.ok := by
  have key : ∀ x : List Record, (x.map Record.boardReset).map Record.source = x.map Record.source := by
    intro x
    rw [List.map_map]
    exact List.map_congr_left (fun r _ => boardReset_source r)
  refine ⟨by simpa [Log.boardReset] using h.1, ?_, ?_⟩
  · have hs : l.boardReset.records.map Record.source = l.records.map Record.source := by
      unfold Log.records Log.boardReset
      cases l.first with
      | none => exact key l.next
      | some r => exact key (r :: l.next)
    rw [hs]
    exact h.2.1
  · intro hn
    have : l.first = none := by simpa [Log.boardReset] using hn
    simp [Log.boardReset, h.2.2 this]

end Sys2Proof.Machine
end

