-- ==== Sys2Proof/Laws/State.lean ====
section
/-! SUPPORT. One lemma for each field and each update of State. -/

namespace Sys2Proof.Machine

variable (s : State)

@[simp] theorem State.withPower_power (x : Power) : (s.withPower x).power = x := rfl
@[simp] theorem State.withPower_straps (x : Power) : (s.withPower x).straps = s.straps := rfl
@[simp] theorem State.withPower_items (x : Power) : (s.withPower x).items = s.items := rfl
@[simp] theorem State.withPower_monitor (x : Power) : (s.withPower x).monitor = s.monitor := rfl
@[simp] theorem State.withPower_log (x : Power) : (s.withPower x).log = s.log := rfl
@[simp] theorem State.withPower_queue (x : Power) : (s.withPower x).queue = s.queue := rfl
@[simp] theorem State.withPower_engine (x : Power) : (s.withPower x).engine = s.engine := rfl
@[simp] theorem State.withPower_chassis (x : Power) : (s.withPower x).chassis = s.chassis := rfl
@[simp] theorem State.withPower_ctl (x : Power) : (s.withPower x).ctl = s.ctl := rfl
@[simp] theorem State.withPower_outputs (x : Power) : (s.withPower x).outputs = s.outputs := rfl
@[simp] theorem State.withPower_alerts (x : Power) : (s.withPower x).alerts = s.alerts := rfl
@[simp] theorem State.withPower_port (x : Power) : (s.withPower x).port = s.port := rfl
@[simp] theorem State.withPower_freeCount (x : Power) : (s.withPower x).freeCount = s.freeCount := rfl
@[simp] theorem State.withPower_pending (x : Power) : (s.withPower x).pending = s.pending := rfl
@[simp] theorem State.withPower_twice (x y : Power) : (s.withPower x).withPower y = s.withPower y := rfl
@[simp] theorem State.withPower_same : s.withPower s.power = s := rfl

@[simp] theorem State.withStraps_power (x : Straps) : (s.withStraps x).power = s.power := rfl
@[simp] theorem State.withStraps_straps (x : Straps) : (s.withStraps x).straps = x := rfl
@[simp] theorem State.withStraps_items (x : Straps) : (s.withStraps x).items = s.items := rfl
@[simp] theorem State.withStraps_monitor (x : Straps) : (s.withStraps x).monitor = s.monitor := rfl
@[simp] theorem State.withStraps_log (x : Straps) : (s.withStraps x).log = s.log := rfl
@[simp] theorem State.withStraps_queue (x : Straps) : (s.withStraps x).queue = s.queue := rfl
@[simp] theorem State.withStraps_engine (x : Straps) : (s.withStraps x).engine = s.engine := rfl
@[simp] theorem State.withStraps_chassis (x : Straps) : (s.withStraps x).chassis = s.chassis := rfl
@[simp] theorem State.withStraps_ctl (x : Straps) : (s.withStraps x).ctl = s.ctl := rfl
@[simp] theorem State.withStraps_outputs (x : Straps) : (s.withStraps x).outputs = s.outputs := rfl
@[simp] theorem State.withStraps_alerts (x : Straps) : (s.withStraps x).alerts = s.alerts := rfl
@[simp] theorem State.withStraps_port (x : Straps) : (s.withStraps x).port = s.port := rfl
@[simp] theorem State.withStraps_freeCount (x : Straps) : (s.withStraps x).freeCount = s.freeCount := rfl
@[simp] theorem State.withStraps_pending (x : Straps) : (s.withStraps x).pending = s.pending := rfl
@[simp] theorem State.withStraps_twice (x y : Straps) : (s.withStraps x).withStraps y = s.withStraps y := rfl
@[simp] theorem State.withStraps_same : s.withStraps s.straps = s := rfl

@[simp] theorem State.withItems_power (x : Items) : (s.withItems x).power = s.power := rfl
@[simp] theorem State.withItems_straps (x : Items) : (s.withItems x).straps = s.straps := rfl
@[simp] theorem State.withItems_items (x : Items) : (s.withItems x).items = x := rfl
@[simp] theorem State.withItems_monitor (x : Items) : (s.withItems x).monitor = s.monitor := rfl
@[simp] theorem State.withItems_log (x : Items) : (s.withItems x).log = s.log := rfl
@[simp] theorem State.withItems_queue (x : Items) : (s.withItems x).queue = s.queue := rfl
@[simp] theorem State.withItems_engine (x : Items) : (s.withItems x).engine = s.engine := rfl
@[simp] theorem State.withItems_chassis (x : Items) : (s.withItems x).chassis = s.chassis := rfl
@[simp] theorem State.withItems_ctl (x : Items) : (s.withItems x).ctl = s.ctl := rfl
@[simp] theorem State.withItems_outputs (x : Items) : (s.withItems x).outputs = s.outputs := rfl
@[simp] theorem State.withItems_alerts (x : Items) : (s.withItems x).alerts = s.alerts := rfl
@[simp] theorem State.withItems_port (x : Items) : (s.withItems x).port = s.port := rfl
@[simp] theorem State.withItems_freeCount (x : Items) : (s.withItems x).freeCount = s.freeCount := rfl
@[simp] theorem State.withItems_pending (x : Items) : (s.withItems x).pending = s.pending := rfl
@[simp] theorem State.withItems_twice (x y : Items) : (s.withItems x).withItems y = s.withItems y := rfl
@[simp] theorem State.withItems_same : s.withItems s.items = s := rfl

@[simp] theorem State.withMonitor_power (x : Monitor) : (s.withMonitor x).power = s.power := rfl
@[simp] theorem State.withMonitor_straps (x : Monitor) : (s.withMonitor x).straps = s.straps := rfl
@[simp] theorem State.withMonitor_items (x : Monitor) : (s.withMonitor x).items = s.items := rfl
@[simp] theorem State.withMonitor_monitor (x : Monitor) : (s.withMonitor x).monitor = x := rfl
@[simp] theorem State.withMonitor_log (x : Monitor) : (s.withMonitor x).log = s.log := rfl
@[simp] theorem State.withMonitor_queue (x : Monitor) : (s.withMonitor x).queue = s.queue := rfl
@[simp] theorem State.withMonitor_engine (x : Monitor) : (s.withMonitor x).engine = s.engine := rfl
@[simp] theorem State.withMonitor_chassis (x : Monitor) : (s.withMonitor x).chassis = s.chassis := rfl
@[simp] theorem State.withMonitor_ctl (x : Monitor) : (s.withMonitor x).ctl = s.ctl := rfl
@[simp] theorem State.withMonitor_outputs (x : Monitor) : (s.withMonitor x).outputs = s.outputs := rfl
@[simp] theorem State.withMonitor_alerts (x : Monitor) : (s.withMonitor x).alerts = s.alerts := rfl
@[simp] theorem State.withMonitor_port (x : Monitor) : (s.withMonitor x).port = s.port := rfl
@[simp] theorem State.withMonitor_freeCount (x : Monitor) : (s.withMonitor x).freeCount = s.freeCount := rfl
@[simp] theorem State.withMonitor_pending (x : Monitor) : (s.withMonitor x).pending = s.pending := rfl
@[simp] theorem State.withMonitor_twice (x y : Monitor) : (s.withMonitor x).withMonitor y = s.withMonitor y := rfl
@[simp] theorem State.withMonitor_same : s.withMonitor s.monitor = s := rfl

@[simp] theorem State.withLog_power (x : Log) : (s.withLog x).power = s.power := rfl
@[simp] theorem State.withLog_straps (x : Log) : (s.withLog x).straps = s.straps := rfl
@[simp] theorem State.withLog_items (x : Log) : (s.withLog x).items = s.items := rfl
@[simp] theorem State.withLog_monitor (x : Log) : (s.withLog x).monitor = s.monitor := rfl
@[simp] theorem State.withLog_log (x : Log) : (s.withLog x).log = x := rfl
@[simp] theorem State.withLog_queue (x : Log) : (s.withLog x).queue = s.queue := rfl
@[simp] theorem State.withLog_engine (x : Log) : (s.withLog x).engine = s.engine := rfl
@[simp] theorem State.withLog_chassis (x : Log) : (s.withLog x).chassis = s.chassis := rfl
@[simp] theorem State.withLog_ctl (x : Log) : (s.withLog x).ctl = s.ctl := rfl
@[simp] theorem State.withLog_outputs (x : Log) : (s.withLog x).outputs = s.outputs := rfl
@[simp] theorem State.withLog_alerts (x : Log) : (s.withLog x).alerts = s.alerts := rfl
@[simp] theorem State.withLog_port (x : Log) : (s.withLog x).port = s.port := rfl
@[simp] theorem State.withLog_freeCount (x : Log) : (s.withLog x).freeCount = s.freeCount := rfl
@[simp] theorem State.withLog_pending (x : Log) : (s.withLog x).pending = s.pending := rfl
@[simp] theorem State.withLog_twice (x y : Log) : (s.withLog x).withLog y = s.withLog y := rfl
@[simp] theorem State.withLog_same : s.withLog s.log = s := rfl

@[simp] theorem State.withQueue_power (x : Queue) : (s.withQueue x).power = s.power := rfl
@[simp] theorem State.withQueue_straps (x : Queue) : (s.withQueue x).straps = s.straps := rfl
@[simp] theorem State.withQueue_items (x : Queue) : (s.withQueue x).items = s.items := rfl
@[simp] theorem State.withQueue_monitor (x : Queue) : (s.withQueue x).monitor = s.monitor := rfl
@[simp] theorem State.withQueue_log (x : Queue) : (s.withQueue x).log = s.log := rfl
@[simp] theorem State.withQueue_queue (x : Queue) : (s.withQueue x).queue = x := rfl
@[simp] theorem State.withQueue_engine (x : Queue) : (s.withQueue x).engine = s.engine := rfl
@[simp] theorem State.withQueue_chassis (x : Queue) : (s.withQueue x).chassis = s.chassis := rfl
@[simp] theorem State.withQueue_ctl (x : Queue) : (s.withQueue x).ctl = s.ctl := rfl
@[simp] theorem State.withQueue_outputs (x : Queue) : (s.withQueue x).outputs = s.outputs := rfl
@[simp] theorem State.withQueue_alerts (x : Queue) : (s.withQueue x).alerts = s.alerts := rfl
@[simp] theorem State.withQueue_port (x : Queue) : (s.withQueue x).port = s.port := rfl
@[simp] theorem State.withQueue_freeCount (x : Queue) : (s.withQueue x).freeCount = s.freeCount := rfl
@[simp] theorem State.withQueue_pending (x : Queue) : (s.withQueue x).pending = s.pending := rfl
@[simp] theorem State.withQueue_twice (x y : Queue) : (s.withQueue x).withQueue y = s.withQueue y := rfl
@[simp] theorem State.withQueue_same : s.withQueue s.queue = s := rfl

@[simp] theorem State.withEngine_power (x : Engine) : (s.withEngine x).power = s.power := rfl
@[simp] theorem State.withEngine_straps (x : Engine) : (s.withEngine x).straps = s.straps := rfl
@[simp] theorem State.withEngine_items (x : Engine) : (s.withEngine x).items = s.items := rfl
@[simp] theorem State.withEngine_monitor (x : Engine) : (s.withEngine x).monitor = s.monitor := rfl
@[simp] theorem State.withEngine_log (x : Engine) : (s.withEngine x).log = s.log := rfl
@[simp] theorem State.withEngine_queue (x : Engine) : (s.withEngine x).queue = s.queue := rfl
@[simp] theorem State.withEngine_engine (x : Engine) : (s.withEngine x).engine = x := rfl
@[simp] theorem State.withEngine_chassis (x : Engine) : (s.withEngine x).chassis = s.chassis := rfl
@[simp] theorem State.withEngine_ctl (x : Engine) : (s.withEngine x).ctl = s.ctl := rfl
@[simp] theorem State.withEngine_outputs (x : Engine) : (s.withEngine x).outputs = s.outputs := rfl
@[simp] theorem State.withEngine_alerts (x : Engine) : (s.withEngine x).alerts = s.alerts := rfl
@[simp] theorem State.withEngine_port (x : Engine) : (s.withEngine x).port = s.port := rfl
@[simp] theorem State.withEngine_freeCount (x : Engine) : (s.withEngine x).freeCount = s.freeCount := rfl
@[simp] theorem State.withEngine_pending (x : Engine) : (s.withEngine x).pending = s.pending := rfl
@[simp] theorem State.withEngine_twice (x y : Engine) : (s.withEngine x).withEngine y = s.withEngine y := rfl
@[simp] theorem State.withEngine_same : s.withEngine s.engine = s := rfl

@[simp] theorem State.withChassis_power (x : Chassis) : (s.withChassis x).power = s.power := rfl
@[simp] theorem State.withChassis_straps (x : Chassis) : (s.withChassis x).straps = s.straps := rfl
@[simp] theorem State.withChassis_items (x : Chassis) : (s.withChassis x).items = s.items := rfl
@[simp] theorem State.withChassis_monitor (x : Chassis) : (s.withChassis x).monitor = s.monitor := rfl
@[simp] theorem State.withChassis_log (x : Chassis) : (s.withChassis x).log = s.log := rfl
@[simp] theorem State.withChassis_queue (x : Chassis) : (s.withChassis x).queue = s.queue := rfl
@[simp] theorem State.withChassis_engine (x : Chassis) : (s.withChassis x).engine = s.engine := rfl
@[simp] theorem State.withChassis_chassis (x : Chassis) : (s.withChassis x).chassis = x := rfl
@[simp] theorem State.withChassis_ctl (x : Chassis) : (s.withChassis x).ctl = s.ctl := rfl
@[simp] theorem State.withChassis_outputs (x : Chassis) : (s.withChassis x).outputs = s.outputs := rfl
@[simp] theorem State.withChassis_alerts (x : Chassis) : (s.withChassis x).alerts = s.alerts := rfl
@[simp] theorem State.withChassis_port (x : Chassis) : (s.withChassis x).port = s.port := rfl
@[simp] theorem State.withChassis_freeCount (x : Chassis) : (s.withChassis x).freeCount = s.freeCount := rfl
@[simp] theorem State.withChassis_pending (x : Chassis) : (s.withChassis x).pending = s.pending := rfl
@[simp] theorem State.withChassis_twice (x y : Chassis) : (s.withChassis x).withChassis y = s.withChassis y := rfl
@[simp] theorem State.withChassis_same : s.withChassis s.chassis = s := rfl

@[simp] theorem State.withCtl_power (x : Ctl) : (s.withCtl x).power = s.power := rfl
@[simp] theorem State.withCtl_straps (x : Ctl) : (s.withCtl x).straps = s.straps := rfl
@[simp] theorem State.withCtl_items (x : Ctl) : (s.withCtl x).items = s.items := rfl
@[simp] theorem State.withCtl_monitor (x : Ctl) : (s.withCtl x).monitor = s.monitor := rfl
@[simp] theorem State.withCtl_log (x : Ctl) : (s.withCtl x).log = s.log := rfl
@[simp] theorem State.withCtl_queue (x : Ctl) : (s.withCtl x).queue = s.queue := rfl
@[simp] theorem State.withCtl_engine (x : Ctl) : (s.withCtl x).engine = s.engine := rfl
@[simp] theorem State.withCtl_chassis (x : Ctl) : (s.withCtl x).chassis = s.chassis := rfl
@[simp] theorem State.withCtl_ctl (x : Ctl) : (s.withCtl x).ctl = x := rfl
@[simp] theorem State.withCtl_outputs (x : Ctl) : (s.withCtl x).outputs = s.outputs := rfl
@[simp] theorem State.withCtl_alerts (x : Ctl) : (s.withCtl x).alerts = s.alerts := rfl
@[simp] theorem State.withCtl_port (x : Ctl) : (s.withCtl x).port = s.port := rfl
@[simp] theorem State.withCtl_freeCount (x : Ctl) : (s.withCtl x).freeCount = s.freeCount := rfl
@[simp] theorem State.withCtl_pending (x : Ctl) : (s.withCtl x).pending = s.pending := rfl
@[simp] theorem State.withCtl_twice (x y : Ctl) : (s.withCtl x).withCtl y = s.withCtl y := rfl
@[simp] theorem State.withCtl_same : s.withCtl s.ctl = s := rfl

@[simp] theorem State.withOutputs_power (x : Outputs) : (s.withOutputs x).power = s.power := rfl
@[simp] theorem State.withOutputs_straps (x : Outputs) : (s.withOutputs x).straps = s.straps := rfl
@[simp] theorem State.withOutputs_items (x : Outputs) : (s.withOutputs x).items = s.items := rfl
@[simp] theorem State.withOutputs_monitor (x : Outputs) : (s.withOutputs x).monitor = s.monitor := rfl
@[simp] theorem State.withOutputs_log (x : Outputs) : (s.withOutputs x).log = s.log := rfl
@[simp] theorem State.withOutputs_queue (x : Outputs) : (s.withOutputs x).queue = s.queue := rfl
@[simp] theorem State.withOutputs_engine (x : Outputs) : (s.withOutputs x).engine = s.engine := rfl
@[simp] theorem State.withOutputs_chassis (x : Outputs) : (s.withOutputs x).chassis = s.chassis := rfl
@[simp] theorem State.withOutputs_ctl (x : Outputs) : (s.withOutputs x).ctl = s.ctl := rfl
@[simp] theorem State.withOutputs_outputs (x : Outputs) : (s.withOutputs x).outputs = x := rfl
@[simp] theorem State.withOutputs_alerts (x : Outputs) : (s.withOutputs x).alerts = s.alerts := rfl
@[simp] theorem State.withOutputs_port (x : Outputs) : (s.withOutputs x).port = s.port := rfl
@[simp] theorem State.withOutputs_freeCount (x : Outputs) : (s.withOutputs x).freeCount = s.freeCount := rfl
@[simp] theorem State.withOutputs_pending (x : Outputs) : (s.withOutputs x).pending = s.pending := rfl
@[simp] theorem State.withOutputs_twice (x y : Outputs) : (s.withOutputs x).withOutputs y = s.withOutputs y := rfl
@[simp] theorem State.withOutputs_same : s.withOutputs s.outputs = s := rfl

@[simp] theorem State.withAlerts_power (x : Alerts) : (s.withAlerts x).power = s.power := rfl
@[simp] theorem State.withAlerts_straps (x : Alerts) : (s.withAlerts x).straps = s.straps := rfl
@[simp] theorem State.withAlerts_items (x : Alerts) : (s.withAlerts x).items = s.items := rfl
@[simp] theorem State.withAlerts_monitor (x : Alerts) : (s.withAlerts x).monitor = s.monitor := rfl
@[simp] theorem State.withAlerts_log (x : Alerts) : (s.withAlerts x).log = s.log := rfl
@[simp] theorem State.withAlerts_queue (x : Alerts) : (s.withAlerts x).queue = s.queue := rfl
@[simp] theorem State.withAlerts_engine (x : Alerts) : (s.withAlerts x).engine = s.engine := rfl
@[simp] theorem State.withAlerts_chassis (x : Alerts) : (s.withAlerts x).chassis = s.chassis := rfl
@[simp] theorem State.withAlerts_ctl (x : Alerts) : (s.withAlerts x).ctl = s.ctl := rfl
@[simp] theorem State.withAlerts_outputs (x : Alerts) : (s.withAlerts x).outputs = s.outputs := rfl
@[simp] theorem State.withAlerts_alerts (x : Alerts) : (s.withAlerts x).alerts = x := rfl
@[simp] theorem State.withAlerts_port (x : Alerts) : (s.withAlerts x).port = s.port := rfl
@[simp] theorem State.withAlerts_freeCount (x : Alerts) : (s.withAlerts x).freeCount = s.freeCount := rfl
@[simp] theorem State.withAlerts_pending (x : Alerts) : (s.withAlerts x).pending = s.pending := rfl
@[simp] theorem State.withAlerts_twice (x y : Alerts) : (s.withAlerts x).withAlerts y = s.withAlerts y := rfl
@[simp] theorem State.withAlerts_same : s.withAlerts s.alerts = s := rfl

@[simp] theorem State.withPort_power (x : Port) : (s.withPort x).power = s.power := rfl
@[simp] theorem State.withPort_straps (x : Port) : (s.withPort x).straps = s.straps := rfl
@[simp] theorem State.withPort_items (x : Port) : (s.withPort x).items = s.items := rfl
@[simp] theorem State.withPort_monitor (x : Port) : (s.withPort x).monitor = s.monitor := rfl
@[simp] theorem State.withPort_log (x : Port) : (s.withPort x).log = s.log := rfl
@[simp] theorem State.withPort_queue (x : Port) : (s.withPort x).queue = s.queue := rfl
@[simp] theorem State.withPort_engine (x : Port) : (s.withPort x).engine = s.engine := rfl
@[simp] theorem State.withPort_chassis (x : Port) : (s.withPort x).chassis = s.chassis := rfl
@[simp] theorem State.withPort_ctl (x : Port) : (s.withPort x).ctl = s.ctl := rfl
@[simp] theorem State.withPort_outputs (x : Port) : (s.withPort x).outputs = s.outputs := rfl
@[simp] theorem State.withPort_alerts (x : Port) : (s.withPort x).alerts = s.alerts := rfl
@[simp] theorem State.withPort_port (x : Port) : (s.withPort x).port = x := rfl
@[simp] theorem State.withPort_freeCount (x : Port) : (s.withPort x).freeCount = s.freeCount := rfl
@[simp] theorem State.withPort_pending (x : Port) : (s.withPort x).pending = s.pending := rfl
@[simp] theorem State.withPort_twice (x y : Port) : (s.withPort x).withPort y = s.withPort y := rfl
@[simp] theorem State.withPort_same : s.withPort s.port = s := rfl

@[simp] theorem State.withFree_power (x : Nat) : (s.withFree x).power = s.power := rfl
@[simp] theorem State.withFree_straps (x : Nat) : (s.withFree x).straps = s.straps := rfl
@[simp] theorem State.withFree_items (x : Nat) : (s.withFree x).items = s.items := rfl
@[simp] theorem State.withFree_monitor (x : Nat) : (s.withFree x).monitor = s.monitor := rfl
@[simp] theorem State.withFree_log (x : Nat) : (s.withFree x).log = s.log := rfl
@[simp] theorem State.withFree_queue (x : Nat) : (s.withFree x).queue = s.queue := rfl
@[simp] theorem State.withFree_engine (x : Nat) : (s.withFree x).engine = s.engine := rfl
@[simp] theorem State.withFree_chassis (x : Nat) : (s.withFree x).chassis = s.chassis := rfl
@[simp] theorem State.withFree_ctl (x : Nat) : (s.withFree x).ctl = s.ctl := rfl
@[simp] theorem State.withFree_outputs (x : Nat) : (s.withFree x).outputs = s.outputs := rfl
@[simp] theorem State.withFree_alerts (x : Nat) : (s.withFree x).alerts = s.alerts := rfl
@[simp] theorem State.withFree_port (x : Nat) : (s.withFree x).port = s.port := rfl
@[simp] theorem State.withFree_freeCount (x : Nat) : (s.withFree x).freeCount = x := rfl
@[simp] theorem State.withFree_pending (x : Nat) : (s.withFree x).pending = s.pending := rfl
@[simp] theorem State.withFree_twice (x y : Nat) : (s.withFree x).withFree y = s.withFree y := rfl
@[simp] theorem State.withFree_same : s.withFree s.freeCount = s := rfl

@[simp] theorem State.withPending_power (x : List Instr) : (s.withPending x).power = s.power := rfl
@[simp] theorem State.withPending_straps (x : List Instr) : (s.withPending x).straps = s.straps := rfl
@[simp] theorem State.withPending_items (x : List Instr) : (s.withPending x).items = s.items := rfl
@[simp] theorem State.withPending_monitor (x : List Instr) : (s.withPending x).monitor = s.monitor := rfl
@[simp] theorem State.withPending_log (x : List Instr) : (s.withPending x).log = s.log := rfl
@[simp] theorem State.withPending_queue (x : List Instr) : (s.withPending x).queue = s.queue := rfl
@[simp] theorem State.withPending_engine (x : List Instr) : (s.withPending x).engine = s.engine := rfl
@[simp] theorem State.withPending_chassis (x : List Instr) : (s.withPending x).chassis = s.chassis := rfl
@[simp] theorem State.withPending_ctl (x : List Instr) : (s.withPending x).ctl = s.ctl := rfl
@[simp] theorem State.withPending_outputs (x : List Instr) : (s.withPending x).outputs = s.outputs := rfl
@[simp] theorem State.withPending_alerts (x : List Instr) : (s.withPending x).alerts = s.alerts := rfl
@[simp] theorem State.withPending_port (x : List Instr) : (s.withPending x).port = s.port := rfl
@[simp] theorem State.withPending_freeCount (x : List Instr) : (s.withPending x).freeCount = s.freeCount := rfl
@[simp] theorem State.withPending_pending (x : List Instr) : (s.withPending x).pending = x := rfl
@[simp] theorem State.withPending_twice (x y : List Instr) : (s.withPending x).withPending y = s.withPending y := rfl
@[simp] theorem State.withPending_same : s.withPending s.pending = s := rfl

end Sys2Proof.Machine
end

