-- ==== Sys2Proof/Laws/Local.lean ====
section
/-! SUPPORT. What the operations on sources, records and notices can do: they change the Source Monitor, the log, the queue
and the pending causes, and nothing else. -/

namespace Sys2Proof.Machine

/-- From `s` to `t` only the Source Monitor, the log, the queue and the pending causes have changed; the mask stays, no
pending cause is lost, ALERT goes on following, and queue and log keep their order. -/
structure Local (s t : State) : Prop where
  power : t.power = s.power
  straps : t.straps = s.straps
  items : t.items = s.items
  engine : t.engine = s.engine
  chassis : t.chassis = s.chassis
  ctl : t.ctl = s.ctl
  outputs : t.outputs = s.outputs
  port : t.port = s.port
  freeCount : t.freeCount = s.freeCount
  pending : t.pending = s.pending
  mask : t.alerts.mask = s.alerts.mask
  keeps : s.alerts.pending &&& t.alerts.pending = s.alerts.pending
  line : s.alerts.ok → t.alerts.ok
  queue : s.queue.ok → t.queue.ok
  log : s.log.ok → t.log.ok

theorem Local.refl (s : State) : Local s s where
  power := rfl
  straps := rfl
  items := rfl
  engine := rfl
  chassis := rfl
  ctl := rfl
  outputs := rfl
  port := rfl
  freeCount := rfl
  pending := rfl
  mask := rfl
  keeps := BitVec.and_self
  line := id
  queue := id
  log := id

theorem Local.trans {s t u : State} (a : Local s t) (b : Local t u) : Local s u where
  power := b.power.trans a.power
  straps := b.straps.trans a.straps
  items := b.items.trans a.items
  engine := b.engine.trans a.engine
  chassis := b.chassis.trans a.chassis
  ctl := b.ctl.trans a.ctl
  outputs := b.outputs.trans a.outputs
  port := b.port.trans a.port
  freeCount := b.freeCount.trans a.freeCount
  pending := b.pending.trans a.pending
  mask := b.mask.trans a.mask
  keeps := by
    have h1 := a.keeps
    have h2 := b.keeps
    calc s.alerts.pending &&& u.alerts.pending
        = (s.alerts.pending &&& t.alerts.pending) &&& u.alerts.pending := by rw [h1]
      _ = s.alerts.pending &&& (t.alerts.pending &&& u.alerts.pending) := BitVec.and_assoc ..
      _ = s.alerts.pending := by rw [h2, h1]
  line := fun h => b.line (a.line h)
  queue := fun h => b.queue (a.queue h)
  log := fun h => b.log (a.log h)

/-- A change of the Source Monitor alone. -/
theorem Local.ofMonitor (s : State) (m : Monitor) : Local s (s.withMonitor m) :=
  { Local.refl s with }

/-- A change of the log that keeps its records in order. -/
theorem Local.ofLog (s : State) (l : Log) (h : s.log.ok → l.ok) : Local s (s.withLog l) :=
  { Local.refl s with log := h }

/-- A change of the queue that keeps its order. -/
theorem Local.ofQueue (s : State) (q : Queue) (h : s.queue.ok → q.ok) : Local s (s.withQueue q) :=
  { Local.refl s with queue := h }

/-- What a cause that becomes pending brings. -/
theorem setCause_local (c : Cause) (s : State) : Local s (s.setCause c) :=
  { Local.refl s with
    keeps := by
      show s.alerts.pending &&& (s.alerts.pending ||| c.bit) = _
      ext i hi
      simp only [BitVec.getElem_and, BitVec.getElem_or, Bool.and_eq_left_iff_imp, Bool.or_eq_true]
      exact Or.inl
    line := fun _ => rfl }

theorem setCauseIf_local (b : Bool) (c : Cause) (s : State) : Local s (s.setCauseIf b c) := by
  unfold State.setCauseIf
  split
  · exact setCause_local c s
  · exact Local.refl s

theorem markRecord_local (n : BitVec 6) (st : LocalState) (s : State) : Local s (s.markRecord n st) :=
  Local.ofLog s _ (s.log.ok_setState n st)

theorem loseNotice_local (s : State) : Local s s.loseNotice :=
  (Local.ofQueue s s.queue.lose s.queue.ok_lose).trans (setCause_local _ _)

theorem displaced_local (i : Item) (s : State) : Local s (s.displaced i) := by
  unfold State.displaced
  split
  · next n _ =>
    exact ((Local.ofQueue s (s.queue.unlink n) (s.queue.ok_unlink n)).trans
      (markRecord_local _ _ _)).trans (loseNotice_local _)
  · exact loseNotice_local s

theorem answered_local (a : Answer) (s : State) (h : s.queue.ok → a.queue.ok) :
    Local s (s.answered a) := by
  unfold State.answered
  split
  · exact (Local.ofQueue s a.queue h).trans (displaced_local _ _)
  · exact Local.ofQueue s a.queue h

theorem takeFault_local (r : Report) (linked : Bool) (s : State) : Local s (s.takeFault r linked) := by
  have h := answered_local (s.queue.offerFault r linked) s (s.queue.ok_offerFault r linked)
  unfold State.takeFault
  dsimp only
  split
  · split
    · exact h.trans (markRecord_local _ _ _)
    · exact h
  · split
    · exact (h.trans (markRecord_local _ _ _)).trans (loseNotice_local _)
    · exact h.trans (loseNotice_local _)

theorem raiseFault_local (n : Fin 32) (sv : Severity) (d : Word) (s : State) : Local s (s.raiseFault n sv d) :=
  ((Local.ofLog s _ (s.log.ok_take _ sv d)).trans (setCauseIf_local _ _ _)).trans (takeFault_local _ _ _)

theorem assertSource_local (n : Fin 32) (d : Word) (s : State) : Local s (s.assertSource n d) := by
  unfold State.assertSource
  dsimp only
  split
  · exact (Local.ofMonitor s _).trans (raiseFault_local _ _ _ _)
  · exact Local.ofMonitor s _

theorem busFault_local (d : Word) (s : State) : Local s (s.busFault d) :=
  (setCause_local _ _).trans (assertSource_local _ _ _)

theorem requeue_local (l : List Record) (s : State) :
    Local s (l.foldl (fun t r => t.takeFault r.report true) s) := by
  induction l generalizing s with
  | nil => exact Local.refl s
  | cons r rest ih => exact (takeFault_local _ _ _).trans (ih _)

theorem requeueUnsent_local (s : State) : Local s s.requeueUnsent := requeue_local _ _

theorem headBack_local (q : Queue) (s : State) (hq : s.queue.ok → q.ok) : Local s (s.headBack q) := by
  have h := Local.ofQueue s q hq
  unfold State.headBack
  split
  · exact h.trans (markRecord_local _ _ _)
  · exact h

theorem returnHead_local (s : State) : Local s s.returnHead := headBack_local _ s s.queue.ok_returnHead

theorem retryHead_local (s : State) : Local s s.retryHead := headBack_local _ s s.queue.ok_retryHead

theorem modifyHead_local (f : Head → Head) (s : State) : Local s (s.withQueue (s.queue.modifyHead f)) :=
  Local.ofQueue s _ (s.queue.ok_modifyHead f)

theorem fireAging_local (s : State) : Local s s.fireAging := by
  unfold State.fireAging
  split
  · split
    · exact modifyHead_local _ s
    · exact Local.refl s
  · exact Local.refl s

theorem startHead_local (s : State) : Local s s.startHead := by
  have h := Local.ofQueue s s.queue.startHead s.queue.ok_startHead
  unfold State.startHead
  split
  · exact Local.refl s
  · split
    · exact h.trans (markRecord_local _ _ _)
    · exact h

theorem reportLoss_local (s : State) : Local s s.reportLoss := by
  unfold State.reportLoss
  split
  · split
    · exact modifyHead_local _ s
    · exact Local.refl s
    · exact Local.refl s
  · exact Local.refl s

theorem settleHead_local (n : Word) (s : State) : Local s (s.settleHead n) := by
  have h := Local.ofQueue s s.queue.settleHead s.queue.ok_settleHead
  unfold State.settleHead
  split
  · exact h.trans (markRecord_local _ _ _)
  · exact h

theorem takeLine_local (n : Fin 24) (s : State) : Local s (s.takeLine n) :=
  (Local.ofMonitor s _).trans (assertSource_local _ _ _)

theorem startLine_local (n : Fin 24) (s : State) : Local s (s.startLine n) := by
  unfold State.startLine
  split
  · exact takeLine_local n s
  · exact Local.ofMonitor s _

theorem watchLine_local (n : Fin 24) (s : State) : Local s (s.watchLine n) := by
  unfold State.watchLine
  split
  · split
    · exact Local.ofMonitor s _
    · exact startLine_local n s
  · exact Local.ofMonitor s _

theorem watchEach_local (l : List (Fin 24)) (s : State) : Local s (l.foldl (fun t n => t.watchLine n) s) := by
  induction l generalizing s with
  | nil => exact Local.refl s
  | cons n rest ih => exact (watchLine_local _ _).trans (ih _)

theorem watchAll_local (fin : BitVec 24) (s : State) : Local s (s.watchAll fin) :=
  (Local.ofMonitor s _).trans (watchEach_local _ _)

theorem readLevel_local (n : Fin 24) (high : Bool) (s : State) : Local s (s.readLevel n high) :=
  Local.ofMonitor s _

theorem lineRises_local (n : Fin 24) (s : State) : Local s (s.lineRises n) := by
  unfold State.lineRises
  split
  · exact startLine_local n s
  · exact Local.refl s
  · exact Local.refl s

theorem lineFalls_local (n : Fin 24) (s : State) : Local s (s.lineFalls n) := Local.ofMonitor s _

theorem hearDuplicate_local (f : Frame) (s : State) : Local s (s.hearDuplicate f) := by
  unfold State.hearDuplicate
  split
  · exact busFault_local _ s
  · exact Local.refl s

theorem clearLocalFirst_local (s : State) : Local s s.clearLocalFirst := by
  unfold State.clearLocalFirst
  split
  · exact Local.refl s
  · next r _ =>
    exact ((Local.ofLog s s.log.promote s.log.ok_promote).trans
      (Local.ofQueue _ (s.queue.unlink (r.source.setWidth 6)) (Queue.ok_unlink _ _))).trans
      (setCauseIf_local _ _ _)

end Sys2Proof.Machine
end

