-- ==== Sys2Proof/Laws/Levels.lean ====
section
/-! SUPPORT. The conditions of Safety.lean through the operations that move the station, its copy and its output lines. -/

namespace Sys2Proof.Machine

/-! ### Through local changes -/

theorem Local.pinsFollow {s t : State} (h : Local s t) (p : s.pinsFollow) : t.pinsFollow :=
  ⟨h.line p.1, by rw [h.outputs]; exact p.2⟩

theorem Local.bounded {s t : State} (h : Local s t) (b : s.bounded) : t.bounded :=
  ⟨by rw [h.chassis]; exact b.1, h.queue b.2.1, h.log b.2.2⟩

theorem Local.copyValid {s t : State} (h : Local s t) : t.copyValid = s.copyValid := by
  unfold State.copyValid; rw [h.ctl]

theorem Local.levelToDrive {s t : State} (h : Local s t) : t.levelToDrive = s.levelToDrive := by
  unfold State.levelToDrive; rw [h.copyValid, h.chassis, h.outputs]

theorem Local.levelFollows {s t : State} (h : Local s t) (l : s.levelFollows) : t.levelFollows := by
  unfold State.levelFollows
  rw [h.levelToDrive, h.copyValid, h.chassis, h.outputs]
  exact l

theorem Local.transferOk {s t : State} (h : Local s t) (x : s.transferOk) : t.transferOk := by
  unfold State.transferOk
  rw [h.ctl, h.chassis]
  exact x

theorem Local.operating {s t : State} (h : Local s t) : t.operating = s.operating := by
  unfold State.operating; rw [h.power]

theorem Local.sound {s t : State} (h : Local s t) (x : s.sound) : t.sound :=
  ⟨h.pinsFollow x.1, h.levelFollows x.2.1, h.bounded x.2.2.1, h.transferOk x.2.2.2⟩

/-! ### The driven level (R34, R37) -/

theorem Outputs.drive_ok (o : Outputs) (l : Level) : (o.drive l).ok := by
  cases l <;> simp [Outputs.ok, Outputs.drive, Level.rank]

/-- The second half of `levelFollows`. -/
def State.copyFollows (s : State) : Prop :=
  s.copyValid = true →
    s.chassis.level = deriveLevel s.chassis.halt s.chassis.table ∧ s.outputs.lastKnown = s.chassis.level

theorem State.copyFollows_of_invalid {s : State} (h : s.copyValid = false) : s.copyFollows := by
  intro h'; rw [h] at h'; exact absurd h' (by decide)

/-- What taking the driven level anew does (R37): the outputs drive the level to drive, and LEVEL_CHANGE is set when that
differs from the level before. -/
theorem redrive_local (s : State) : Local (s.withOutputs (s.outputs.drive s.levelToDrive)) s.redrive :=
  setCauseIf_local _ _ _

@[simp] theorem redrive_outputs (s : State) : s.redrive.outputs = s.outputs.drive s.levelToDrive :=
  (redrive_local s).outputs

@[simp] theorem redrive_chassis (s : State) : s.redrive.chassis = s.chassis := (redrive_local s).chassis

@[simp] theorem redrive_ctl (s : State) : s.redrive.ctl = s.ctl := (redrive_local s).ctl

theorem redrive_pins (s : State) (h : s.alerts.ok) : s.redrive.pinsFollow :=
  ⟨(redrive_local s).line h, by rw [redrive_outputs]; exact Outputs.drive_ok _ _⟩

theorem redrive_bounded (s : State) (h : s.bounded) : s.redrive.bounded :=
  (redrive_local s).bounded h

theorem redrive_transferOk (s : State) (h : s.transferOk) : s.redrive.transferOk :=
  (redrive_local s).transferOk h

theorem levelToDrive_drive (s : State) (l : Level) :
    (s.withOutputs (s.outputs.drive l)).levelToDrive = s.levelToDrive := rfl

theorem redrive_level (s : State) (h : s.copyFollows) : s.redrive.levelFollows :=
  (redrive_local s).levelFollows ⟨rfl, h⟩

/-- The driven level does not move when the station goes on having to drive the level it drives. -/
theorem levelFollows_keep {s t : State} (h : s.levelFollows) (ho : t.outputs = s.outputs)
    (hs : s.copyValid = false) (ht : t.copyValid = false) : t.levelFollows := by
  refine ⟨?_, fun h' => by rw [ht] at h'; exact absurd h' (by decide)⟩
  have := h.1
  unfold State.levelToDrive at *
  rw [ht, ho]
  rw [hs] at this
  exact this

/-- The driven level of a valid copy does not move when level, latch, table and outputs do not. -/
theorem levelFollows_copy {s t : State} (h : s.levelFollows) (ho : t.outputs = s.outputs)
    (hv : t.copyValid = s.copyValid) (hl : t.chassis.level = s.chassis.level)
    (hh : t.chassis.halt = s.chassis.halt) (ht : t.chassis.table = s.chassis.table) : t.levelFollows := by
  unfold State.levelFollows State.levelToDrive at *
  rw [ho, hv, hl, hh, ht]
  exact h

/-! ### Leaving the chassis (R18, R118) -/

/-- What leaving the chassis leaves unchanged. -/
theorem abandon_facts (s : State) :
    s.abandon.chassis = Chassis.empty ∧ s.abandon.outputs = s.outputs ∧ s.abandon.ctl.transfer = none
      ∧ s.abandon.items = s.items ∧ s.abandon.power = s.power ∧ s.abandon.port = s.port
      ∧ s.abandon.engine = { s.engine with foreign := 0 } := by
  have h := returnHead_local s
  refine ⟨rfl, h.outputs, rfl, h.items, h.power, h.port, ?_⟩
  show { s.returnHead.engine with foreign := 0 } = _
  rw [h.engine]

theorem abandon_alerts (s : State) (h : s.alerts.ok) : s.abandon.alerts.ok := (returnHead_local s).line h

theorem abandon_bounded (s : State) (h : s.bounded) : s.abandon.bounded :=
  ⟨⟨Nat.zero_le _, List.Pairwise.nil⟩, (returnHead_local s).queue h.2.1, (returnHead_local s).log h.2.2⟩

/-- A state whose station holds no valid copy and no transfer, and which has just abandoned the chassis: taking the driven
level anew makes all four conditions hold. -/
theorem redrive_sound (s : State) (ha : s.alerts.ok) (hb : s.bounded) (hc : s.copyFollows)
    (ht : s.ctl.transfer = none) : s.redrive.sound :=
  ⟨redrive_pins s ha, redrive_level s hc, redrive_bounded s hb,
    redrive_transferOk s (fun x hx => by rw [ht] at hx; exact absurd hx (by simp))⟩

theorem toDetached_sound (c : Removal) (j : Bool) (s : State) (ha : s.alerts.ok) (hb : s.bounded) :
    (s.toDetached c j).sound :=
  redrive_sound _ (abandon_alerts s ha) (abandon_bounded s hb) (State.copyFollows_of_invalid rfl) rfl

theorem toAdrift_sound (d : Word) (s : State) (ha : s.alerts.ok) (hb : s.bounded) : (s.toAdrift d).sound :=
  ((setCause_local _ _).trans (assertSource_local _ _ _)).sound
    (redrive_sound _ (abandon_alerts s ha) (abandon_bounded s hb) (State.copyFollows_of_invalid rfl) rfl)

theorem exitAdrift_sound (s : State) (h : s.sound) : s.exitAdrift.sound :=
  toDetached_sound _ _ s h.1.1 h.2.2.1

/-! ### Changes of the Roster Controller alone -/

/-- A change of the Roster Controller that keeps the station state and the transfer. -/
theorem withCtl_sound (s : State) (c : Ctl) (hs : c.station = s.ctl.station) (ht : c.transfer = s.ctl.transfer)
    (h : s.sound) : (s.withCtl c).sound := by
  refine ⟨h.1, levelFollows_copy h.2.1 rfl ?_ rfl rfl rfl, h.2.2.1, ?_⟩
  · show c.station.valid = s.ctl.station.valid
    rw [hs]
  · intro x hx
    have := h.2.2.2 x (by rw [← ht]; exact hx)
    refine ⟨?_, this.2⟩
    show c.station = _
    rw [hs]; exact this.1

theorem withEngine_sound (s : State) (e : Engine) (h : s.sound) : (s.withEngine e).sound := h

theorem withPort_sound (s : State) (p : Port) (h : s.sound) : (s.withPort p).sound := h

theorem withPower_sound (s : State) (p : Power) (h : s.sound) : (s.withPower p).sound := h

theorem withStraps_sound (s : State) (p : Straps) (h : s.sound) : (s.withStraps p).sound := h

theorem withItems_sound (s : State) (p : Items) (h : s.sound) : (s.withItems p).sound := h

theorem withFree_sound (s : State) (n : Nat) (h : s.sound) : (s.withFree n).sound := h

theorem withPending_sound (s : State) (p : List Instr) (h : s.sound) : (s.withPending p).sound := h

theorem computeRoster_sound (s : State) (h : s.sound) : s.computeRoster.sound := by
  unfold State.computeRoster
  split
  · exact withCtl_sound s _ rfl rfl h
  · exact withCtl_sound s _ rfl rfl h

theorem toJoining_sound (s : State) (h : s.sound) (hd : s.ctl.station = .detached) : s.toJoining.sound := by
  refine ⟨h.1, levelFollows_keep h.2.1 rfl (by simp [State.copyValid, hd, Station.valid]) rfl, h.2.2.1, ?_⟩
  intro x hx
  have := (h.2.2.2 x hx).1
  rw [hd] at this
  exact absurd this (by decide)

/-- Becoming MEMBER (R108, R113): the level is derived, copied and driven. -/
theorem toMember_sound (s : State) (ha : s.alerts.ok) (hb : s.bounded) : s.toMember.sound := by
  unfold State.toMember
  dsimp only
  refine (requeueUnsent_local _).sound (computeRoster_sound _ ((setCause_local _ _).sound ?_))
  exact redrive_sound _ ha hb (fun _ => ⟨rfl, rfl⟩) rfl

/-! ### Events due inside the station -/

theorem fireBreaks_sound (s : State) (h : s.sound) : s.fireBreaks.sound := by
  unfold State.fireBreaks
  split
  · exact (busFault_local _ _).sound h
  · exact h

theorem fireRetry_sound (s : State) (h : s.sound) : s.fireRetry.sound := by
  unfold State.fireRetry
  split
  · have r := (retryHead_local s).sound h
    exact toAdrift_sound _ _ r.1.1 r.2.2.1
  · exact h

theorem fireRosterRetry_sound (s : State) (h : s.sound) : s.fireRosterRetry.sound := by
  unfold State.fireRosterRetry
  split
  · exact toAdrift_sound _ _ h.1.1 h.2.2.1
  · exact h

theorem fireAdriftCount_sound (s : State) (h : s.sound) : s.fireAdriftCount.sound := by
  unfold State.fireAdriftCount
  split
  · exact exitAdrift_sound s h
  · exact h

theorem settleDue_sound (s : State) (h : s.sound) : s.settleDue.sound :=
  fireAdriftCount_sound _ (fireRosterRetry_sound _ (fireRetry_sound _ (fireBreaks_sound _
    ((fireAging_local s).sound h))))

end Sys2Proof.Machine
end

