-- ==== Sys2Proof/Laws/Chassis.lean ====
section
/-! SUPPORT. The chassis copy: what a settled frame can do to it, and the conditions of Safety.lean through FRAME_END. -/

namespace Sys2Proof.Machine

/-! ### Member records and sets -/

@[simp] theorem setHas_setCollect (p : Addr → Bool) (a : Addr) : setHas (setCollect p) a = p a := by
  simp [setCollect, setHas, a.isLt]

/-- The record of an address among records given address by address. -/
theorem record_recordsOf (c : Chassis) (f : Addr → Option Member) (a : Addr) :
    ({ c with records := recordsOf f } : Chassis).record a = f a := by
  simp [Chassis.record, recordsOf]

theorem setHas_map (c : Chassis) (a : Addr) : setHas c.map a = (c.record a).isSome := by
  simp [Chassis.map]

/-! ### The fault table (R2) -/

theorem evictFor_length {sv : Severity} {t u : List Entry} (h : evictFor sv t = some u) :
    u.length + 1 = t.length := by
  unfold evictFor at h
  split at h
  · exact absurd h (by simp)
  · next low hlow =>
    split at h
    · simp only [Option.some.injEq] at h
      subst h
      have hex : ∃ x ∈ t, x.severity = low := by
        clear * - hlow
        induction t generalizing low with
        | nil => simp [lowestSeverity] at hlow
        | cons e rest ih =>
          unfold lowestSeverity at hlow
          split at hlow
          · simp only [Option.some.injEq] at hlow
            exact ⟨e, List.mem_cons_self, hlow⟩
          · next s hs =>
            simp only [Option.some.injEq] at hlow
            split at hlow
            · obtain ⟨x, hx, hxs⟩ := ih s hs
              exact ⟨x, List.mem_cons_of_mem _ hx, hxs.trans hlow⟩
            · exact ⟨e, List.mem_cons_self, hlow⟩
      obtain ⟨x, hx, hxs⟩ := hex
      have hpos := List.length_pos_of_mem hx
      rw [List.length_eraseP_of_mem hx (by simp [hxs])]
      omega
    · exact absurd h (by simp)

/-- Two entries with one origin and source. -/
abbrev Entry.apart (a b : Entry) : Prop := ¬(a.origin = b.origin ∧ a.source = b.source)

theorem same_iff (e x : Entry) : e.same x = true ↔ x.origin = e.origin ∧ x.source = e.source := by
  simp [Entry.same]

theorem tableOk_sublist {t u : List Entry} (h : tableOk t) (hs : u.Sublist t) : tableOk u :=
  ⟨hs.length_le.trans h.1, h.2.sublist hs⟩

/-- A change of single entries that keeps origin and source. -/
theorem tableOk_map {t : List Entry} (f : Entry → Entry) (hf : ∀ x, (f x).origin = x.origin ∧ (f x).source = x.source)
    (h : tableOk t) : tableOk (t.map f) := by
  refine ⟨by simpa using h.1, ?_⟩
  rw [List.pairwise_map]
  refine h.2.imp (fun {a b} hab => ?_)
  rw [(hf a).1, (hf a).2, (hf b).1, (hf b).2]
  exact hab

/-- A new entry at the end of a table that has room and no entry for its origin and source. -/
theorem tableOk_append {t : List Entry} {e : Entry} (h : tableOk t) (hl : t.length < 32)
    (hn : ∀ x ∈ t, x.apart e) : tableOk (t ++ [e]) := by
  refine ⟨by simp; omega, ?_⟩
  rw [List.pairwise_append]
  exact ⟨h.2, List.pairwise_singleton _ _, fun a ha b hb => by
    rw [List.mem_singleton] at hb; subst hb; exact hn a ha⟩

theorem any_same_false {t : List Entry} {e : Entry} (h : t.any e.same = false) : ∀ x ∈ t, x.apart e := by
  intro x hx hs
  have := List.any_eq_false.1 h x hx
  exact this ((same_iff e x).2 hs)

theorem evictFor_sublist {sv : Severity} {t u : List Entry} (h : evictFor sv t = some u) : u.Sublist t := by
  unfold evictFor at h
  split at h
  · exact absurd h (by simp)
  · split at h
    · simp only [Option.some.injEq] at h
      subst h
      exact List.eraseP_sublist
    · exact absurd h (by simp)

theorem place_ok (c : Chassis) (e : Entry) (h : tableOk c.table) : tableOk (c.place e).table := by
  unfold Chassis.place
  split
  · exact tableOk_map _ (fun x => by split <;> simp [Entry.coalesce]) h
  · next hany =>
    have hn := any_same_false (by simpa using hany)
    split
    · next hlt => exact tableOk_append h hlt hn
    · split
      · next t ht =>
        have hs := evictFor_sublist ht
        have := evictFor_length ht
        have h1 := h.1
        exact tableOk_append (tableOk_sublist h hs) (by omega) (fun x hx => hn x (hs.subset hx))
      · exact h

@[simp] theorem offerFirst_table (c : Chassis) (e : Entry) : (c.offerFirst e).table = c.table := by
  unfold Chassis.offerFirst
  split <;> rfl

theorem arrive_ok (c : Chassis) (e : Entry) (h : tableOk c.table) : tableOk (c.arrive e).table := by
  show tableOk ((c.place e).offerFirst e).table
  rw [offerFirst_table]
  exact place_ok c e h

theorem createLosses_ok (c : Chassis) (lost : List Addr) (sv : Option Severity) (n : Word)
    (h : tableOk c.table) : tableOk (c.createLosses lost sv n).table := by
  unfold Chassis.createLosses
  split
  · exact h
  · induction lost generalizing c with
    | nil => exact h
    | cons a rest ih => exact ih _ (arrive_ok c _ h)

theorem applyClear_ok (c : Chassis) (a : Addr) (sc : Scope) (o : Addr) (w : Word)
    (h : tableOk c.table) : tableOk (c.applyClear a sc o w).table := by
  unfold Chassis.applyClear
  split
  · unfold Chassis.clearDone
    split
    · exact h
    · exact h
    · exact tableOk_sublist h List.filter_sublist
  · exact h
  · exact h

theorem applyBody_ok (c : Chassis) (a : Addr) (b : Body) (h : tableOk c.table) :
    tableOk (c.applyBody a b).table := by
  unfold Chassis.applyBody
  split
  · exact arrive_ok c _ h
  · exact tableOk_sublist h List.filter_sublist
  · exact applyClear_ok c _ _ _ _ h
  · exact h
  · exact tableOk_map _ (fun _ => ⟨rfl, rfl⟩) (createLosses_ok _ _ _ _ h)
  · exact h
  · exact h

theorem apply_ok (c : Chassis) (a : Addr) (b : Body) (h : tableOk c.table) : tableOk (c.apply a b).table := by
  unfold Chassis.apply
  split
  · exact applyBody_ok c a b h
  · exact applyBody_ok c a b h

/-- R26: after a settled frame that receives a settle number, the level is derived from latch and table. -/
theorem apply_level (c : Chassis) (a : Addr) (b : Body) (h : b.numbered = true) :
    (c.apply a b).level = deriveLevel (c.apply a b).halt (c.apply a b).table := by
  simp [Chassis.apply, h]

/-- R4: the settle number after a settled frame that receives one. -/
theorem apply_settle (c : Chassis) (a : Addr) (b : Body) (h : b.numbered = true) :
    (c.apply a b).settle = c.settle + 1 := by
  simp [Chassis.apply, h, Chassis.nextSettle]

/-- A settled SNAP leaves a member's copy as it is. -/
theorem apply_other (c : Chassis) (a : Addr) (b : Body) (h : b.numbered = false) : c.apply a b = c := by
  cases b with
  | notice n => simp [Body.numbered] at h
  | join => rfl
  | roster r => simp [Body.numbered] at h
  | snap i x => rfl

/-! ### A settled frame at a MEMBER or LEAVING station -/

/-- A copy whose records alone have changed. -/
theorem records_sound (s : State) (v : Vector (Option Member) 16) (h : s.sound) :
    (s.withChassis { s.chassis with records := v }).sound :=
  ⟨h.1, levelFollows_copy h.2.1 rfl rfl rfl rfl rfl, h.2.2.1, h.2.2.2⟩

theorem countMisses_sound (b : Bool) (e : StationSet) (s : State) (h : s.sound) : (s.countMisses b e).sound := by
  unfold State.countMisses
  split
  · unfold Chassis.countMisses
    split
    · exact h
    · exact records_sound s _ h
  · exact h

/-- At a station that holds a valid copy no transfer is in progress. -/
theorem no_transfer {s : State} (h : s.transferOk) (hv : s.ctl.station ≠ .transfer) : s.ctl.transfer = none := by
  cases hx : s.ctl.transfer with
  | none => rfl
  | some x => exact absurd (h x hx).1 hv

theorem station_of_valid {s : State} (h : s.copyValid = true) :
    s.ctl.station = .member ∨ s.ctl.station = .leaving := by
  unfold State.copyValid Station.valid at h
  split at h <;> simp_all

theorem levelApplied_sound (b : Body) (s : State) (ha : s.alerts.ok) (ho : s.outputs.ok) (hb : s.bounded)
    (ht : s.ctl.transfer = none) (hn : b.numbered = true → s.chassis.level = deriveLevel s.chassis.halt s.chassis.table)
    (hl : b.numbered = false → s.levelFollows) : (s.levelApplied b).sound := by
  unfold State.levelApplied
  split
  · next h => exact redrive_sound _ ha hb (fun _ => ⟨hn h, rfl⟩) ht
  · next h =>
    exact ⟨⟨ha, ho⟩, hl (by simpa using h), hb, fun x hx => by rw [ht] at hx; exact absurd hx (by simp)⟩

theorem trackAdmission_sound (b : Body) (s : State) (h : s.sound) : (s.trackAdmission b).sound := by
  unfold State.trackAdmission
  split
  · split
    · split
      · exact (setCause_local _ _).sound (withCtl_sound _ _ rfl rfl (records_sound s _ h))
      · exact h
    · exact h
  · exact withCtl_sound s _ rfl rfl h
  · exact withCtl_sound s _ rfl rfl h
  · exact withCtl_sound s _ rfl rfl h

theorem clearForeign_sound (b : Body) (s : State) (h : s.sound) : (s.clearForeign b).sound := by
  unfold State.clearForeign
  split <;> exact h

theorem stopSequencer_sound (b : Body) (s : State) (h : s.sound) : (s.stopSequencer b).sound := by
  unfold State.stopSequencer
  split
  · exact h
  · exact withCtl_sound s _ rfl rfl h
  · exact h

theorem applyFrame_sound (f : Frame) (s : State) (h : s.sound) (hv : s.copyValid = true) :
    (s.applyFrame f).sound := by
  have ht : s.ctl.transfer = none := no_transfer h.2.2.2 (by
    rcases station_of_valid hv with e | e <;> rw [e] <;> decide)
  unfold State.applyFrame
  dsimp only
  refine stopSequencer_sound _ _ (clearForeign_sound _ _ (trackAdmission_sound _ _ ?_))
  have l1 := setCauseIf_local
    (decide ((s.withChassis (s.chassis.apply f.sender f.body)).chassis.first.isSome ≠ s.chassis.first.isSome))
    .chassisFirst (s.withChassis (s.chassis.apply f.sender f.body))
  have l2 := setCauseIf_local f.body.changesRoster .rosterChange
    ((s.withChassis (s.chassis.apply f.sender f.body)).setCauseIf
      (decide ((s.withChassis (s.chassis.apply f.sender f.body)).chassis.first.isSome ≠ s.chassis.first.isSome))
      .chassisFirst)
  have l := l1.trans l2
  refine levelApplied_sound _ _ (l.line h.1.1) (by rw [l.outputs]; exact h.1.2) (l.bounded ?_)
    (by rw [l.ctl]; exact ht) (fun hn => ?_) (fun hn => l.levelFollows ?_)
  · exact ⟨apply_ok _ _ _ h.2.2.1.1, h.2.2.1.2⟩
  · rw [l.chassis]
    exact apply_level _ _ _ hn
  · have := apply_other s.chassis f.sender f.body hn
    rw [this]
    exact h.2.1

theorem setCauseIf_ctl (b : Bool) (c : Cause) (s : State) : (s.setCauseIf b c).ctl = s.ctl :=
  (setCauseIf_local b c s).ctl

theorem levelApplied_ctl (b : Body) (s : State) : (s.levelApplied b).ctl = s.ctl := by
  unfold State.levelApplied
  split
  · rw [redrive_ctl]; rfl
  · rfl

theorem trackAdmission_station (b : Body) (s : State) : (s.trackAdmission b).ctl.station = s.ctl.station := by
  unfold State.trackAdmission
  split
  · split
    · split <;> rfl
    · rfl
  · rfl
  · rfl
  · rfl

theorem clearForeign_ctl (b : Body) (s : State) : (s.clearForeign b).ctl = s.ctl := by
  unfold State.clearForeign
  split <;> rfl

theorem stopSequencer_station (b : Body) (s : State) : (s.stopSequencer b).ctl.station = s.ctl.station := by
  unfold State.stopSequencer
  split <;> rfl

/-- Applying a frame does not move the station. -/
theorem applyFrame_station (f : Frame) (s : State) : (s.applyFrame f).ctl.station = s.ctl.station := by
  unfold State.applyFrame
  dsimp only
  rw [stopSequencer_station, clearForeign_ctl, trackAdmission_station, levelApplied_ctl, setCauseIf_ctl,
    setCauseIf_ctl]
  rfl

theorem recordClear_sound (n : Notice) (before : Chassis) (s : State) (h : s.sound) :
    (s.recordClear n before).sound := by
  unfold State.recordClear
  split
  · exact (setCause_local _ _).sound (withPort_sound s _ h)
  · exact h
  · exact h
  · exact h

theorem recordClear_station (n : Notice) (before : Chassis) (s : State) :
    (s.recordClear n before).ctl = s.ctl := by
  unfold State.recordClear
  split
  · exact (setCause_local _ _).ctl
  · rfl
  · rfl
  · rfl

theorem ownLeave_sound (n : Notice) (s : State) (h : s.sound) (hv : s.copyValid = true) : (s.ownLeave n).sound := by
  unfold State.ownLeave
  split
  · have ht : s.ctl.transfer = none := no_transfer h.2.2.2 (by
      rcases station_of_valid hv with e | e <;> rw [e] <;> decide)
    exact ⟨h.1, levelFollows_copy h.2.1 rfl hv.symm rfl rfl rfl, h.2.2.1, fun x hx => by
      have hx' : s.ctl.transfer = some x := hx
      rw [ht] at hx'
      exact absurd hx' (by simp)⟩
  · exact h

theorem reportSettled_sound (p : Path) (f : Frame) (before : Chassis) (s : State) (h : s.sound)
    (hv : s.copyValid = true) : (s.reportSettled p f before).sound := by
  unfold State.reportSettled
  split
  · exact withCtl_sound s _ rfl rfl h
  · split
    · next n _ =>
      have l := settleHead_local before.nextSettle s
      have hc : ((s.settleHead before.nextSettle).recordClear n before).copyValid = true := by
        unfold State.copyValid
        rw [recordClear_station, l.ctl]
        exact hv
      exact ownLeave_sound _ _ (recordClear_sound _ _ _ (l.sound h)) hc
    · exact h
    · exact h
    · exact h
  · exact h

theorem reportIfOwn_sound (f : Frame) (before : Chassis) (s : State) (h : s.sound) (hv : s.copyValid = true) :
    (s.reportIfOwn f before).sound := by
  unfold State.reportIfOwn
  split
  · exact reportSettled_sound _ _ _ _ h hv
  · exact h

theorem removedBy_sound (r : RosterBody) (s : State) (h : s.sound) : (s.removedBy r).sound :=
  (setCause_local _ _).sound (toDetached_sound _ _ s h.1.1 h.2.2.1)

theorem adriftRemovedBy_sound (r : RosterBody) (s : State) (h : s.sound) : (s.adriftRemovedBy r).sound :=
  (setCause_local _ _).sound (toDetached_sound _ _ s h.1.1 h.2.2.1)

theorem settleAtMember_sound (f : Frame) (s : State) (h : s.sound) (hv : s.copyValid = true) :
    (s.settleAtMember f).sound := by
  have ha := applyFrame_sound f s h hv
  have hav : (s.applyFrame f).copyValid = true := by
    unfold State.copyValid
    rw [applyFrame_station]
    exact hv
  unfold State.settleAtMember
  split
  · split
    · exact reportIfOwn_sound _ _ _ ha hav
    · exact removedBy_sound _ _ h
  · exact reportIfOwn_sound _ _ _ ha hav
  · exact reportIfOwn_sound _ _ _ ha hav
  · exact reportIfOwn_sound _ _ _ ha hav

/-! ### The joiner -/

theorem completeTransfer_sound (s : State) (ha : s.alerts.ok) (hb : s.bounded) : s.completeTransfer.sound := by
  have hb' : (s.withChassis (s.chassis.setMemberState s.self .full)).bounded := ⟨hb.1, hb.2⟩
  have l := setCauseIf_local s.chassis.first.isSome .chassisFirst
    (s.withChassis (s.chassis.setMemberState s.self .full))
  unfold State.completeTransfer
  exact toMember_sound _ (l.line ha) (l.bounded hb')

/-- R112: an applied SNAP adds an entry exactly when its index is an entry's. -/
theorem takeSnap_table {c d : Chassis} {x : Transfer} {i : BitVec 6} {w : BitVec 90}
    (h : c.takeSnap x i w = some d) :
    d.table.length = c.table.length + (if i = 0 ∨ (i = 1 ∧ x.withFirst = true) then 0 else 1) := by
  unfold Chassis.takeSnap at h
  dsimp only at h
  split at h
  · next hi =>
    split at h
    · simp only [Option.some.injEq] at h; subst h; simp [hi]
    · exact absurd h (by simp)
  · next hi =>
    split at h
    · next hf =>
      split at h
      · simp only [Option.some.injEq] at h; subst h; simp [hf]
      · exact absurd h (by simp)
    · next hf =>
      split at h
      · split at h
        · exact absurd h (by simp)
        · simp only [Option.some.injEq] at h
          subst h
          rw [if_neg (by rintro (e | e); exacts [hi e, hf e])]
          simp
      · exact absurd h (by simp)

theorem takeSnap_apart {c d : Chassis} {x : Transfer} {i : BitVec 6} {w : BitVec 90}
    (h : c.takeSnap x i w = some d) (hc : c.table.Pairwise Entry.apart) : d.table.Pairwise Entry.apart := by
  unfold Chassis.takeSnap at h
  dsimp only at h
  split at h
  · split at h
    · simp only [Option.some.injEq] at h; subst h; exact hc
    · exact absurd h (by simp)
  · split at h
    · split at h
      · simp only [Option.some.injEq] at h; subst h; exact hc
      · exact absurd h (by simp)
    · split at h
      · split at h
        · exact absurd h (by simp)
        · next e _ hany =>
          simp only [Option.some.injEq] at h
          subst h
          show (c.table ++ [e]).Pairwise Entry.apart
          rw [List.pairwise_append]
          refine ⟨hc, List.pairwise_singleton _ _, fun a ha b hb => ?_⟩
          rw [List.mem_singleton] at hb
          subst hb
          exact any_same_false (by simpa using hany) a ha
      · exact absurd h (by simp)

theorem joinerSnap_sound (i : BitVec 6) (w : BitVec 90) (s : State) (h : s.sound)
    (hs : s.ctl.station = .transfer) : (s.joinerSnap i w).sound := by
  have hv : s.copyValid = false := by simp [State.copyValid, hs, Station.valid]
  unfold State.joinerSnap
  split
  · exact toAdrift_sound _ _ h.1.1 h.2.2.1
  · next x hx =>
    obtain ⟨-, hlen, hlt, htot⟩ := h.2.2.2 x hx
    split
    · next hi =>
      split
      · exact toAdrift_sound _ _ h.1.1 h.2.2.1
      · next c hc =>
        have hl := takeSnap_table hc
        have h0 : (i = 0) ↔ x.next.toNat = 0 := by
          rw [hi]; exact ⟨fun e => by rw [e]; rfl, fun e => BitVec.eq_of_toNat_eq (by simpa using e)⟩
        have h1 : (i = 1) ↔ x.next.toNat = 1 := by
          rw [hi]; exact ⟨fun e => by rw [e]; rfl, fun e => BitVec.eq_of_toNat_eq (by simpa using e)⟩
        have hF : x.withFirst.toNat ≤ 1 := by cases x.withFirst <;> decide
        have hnext : (x.next + 1).toNat = x.next.toNat + 1 := by
          have := x.next.isLt
          rw [BitVec.toNat_add]
          have h1 : (1 : BitVec 6).toNat = 1 := rfl
          rw [h1]
          omega
        have hnew : c.table.length = x.next.toNat + 1 - 1 - x.withFirst.toNat := by
          rw [hl, hlen]
          simp only [h0, h1]
          cases hw : x.withFirst <;> simp <;> split <;> omega
        have hb : (((s.withChassis c).withCtl
            { s.ctl with transfer := some { x with next := x.next + 1 },
                         joinTimer := some s.items.joinWait })).bounded := by
          refine ⟨⟨?_, takeSnap_apart hc h.2.2.1.1.2⟩, h.2.2.1.2⟩
          show c.table.length ≤ 32
          omega
        dsimp only
        split
        · exact completeTransfer_sound _ h.1.1 hb
        · next hne =>
          refine ⟨h.1, levelFollows_keep h.2.1 rfl hv hv, hb, ?_⟩
          intro y hy
          have hy' : some ({ x with next := x.next + 1 } : Transfer) = some y := hy
          simp only [Option.some.injEq] at hy'
          subst hy'
          refine ⟨hs, ?_, ?_, htot⟩
          · show c.table.length = (x.next + 1).toNat - 1 - x.withFirst.toNat
            rw [hnext]; exact hnew
          · show (x.next + 1).toNat < x.total.toNat
            have : (x.next + 1).toNat ≠ x.total.toNat := fun e => hne (BitVec.eq_of_toNat_eq e)
            rw [hnext] at *
            omega
    · exact toAdrift_sound _ _ h.1.1 h.2.2.1

theorem settleAtTransfer_sound (f : Frame) (s : State) (h : s.sound) (hs : s.ctl.station = .transfer) :
    (s.settleAtTransfer f).sound := by
  unfold State.settleAtTransfer
  split
  · exact joinerSnap_sound _ _ s h hs
  · exact toAdrift_sound _ _ h.1.1 h.2.2.1
  · exact toAdrift_sound _ _ h.1.1 h.2.2.1
  · exact toAdrift_sound _ _ h.1.1 h.2.2.1

/-- R94: the snapshot entry count of a well-formed ROSTER is at most 32. -/
theorem wellFormed_entries {r : RosterBody} (h : r.wellFormed = true) : r.entries.toNat ≤ 32 := by
  unfold RosterBody.wellFormed at h
  simp only [Bool.and_eq_true, decide_eq_true_eq] at h
  exact h.1.2

theorem snapTotal_toNat (b : Bool) (e : BitVec 6) (h : e.toNat ≤ 32) :
    (snapTotal b e).toNat = 1 + b.toNat + e.toNat := by
  unfold snapTotal
  cases b <;> simp [BitVec.toNat_add] <;> omega

theorem toTransfer_sound (r : RosterBody) (s : State) (h : s.sound) (hv : s.copyValid = false)
    (hr : r.entries.toNat ≤ 32) : (s.toTransfer r).sound := by
  refine ⟨h.1, levelFollows_keep h.2.1 rfl hv rfl, ⟨⟨Nat.zero_le _, List.Pairwise.nil⟩, h.2.2.1.2⟩, ?_⟩
  intro x hx
  have hx' : some ({ next := 0, total := snapTotal r.withFirst r.entries, withFirst := r.withFirst } : Transfer)
      = some x := hx
  simp only [Option.some.injEq] at hx'
  subst hx'
  have ht := snapTotal_toNat r.withFirst r.entries hr
  refine ⟨rfl, ?_, ?_, ?_⟩
  · show 0 = (0 : BitVec 6).toNat - 1 - _
    simp
  · show (0 : BitVec 6).toNat < (snapTotal r.withFirst r.entries).toNat
    rw [ht]
    show 0 < _
    omega
  · show (snapTotal r.withFirst r.entries).toNat ≤ _
    rw [ht]
    show 1 + r.withFirst.toNat + r.entries.toNat ≤ 33 + r.withFirst.toNat
    omega

/-! ### The frame of a good body -/

/-- R94: a ROSTER in a good body is well-formed. -/
theorem readRoster_wellFormed {p : PayloadBits} {r : RosterBody} (h : readRoster p = some r) :
    r.wellFormed = true := by
  unfold readRoster at h
  extract_lets present b at h
  by_cases hw : b.wellFormed = true ∧ (present = true ∨ p.extractLsb' 28 4 = 0#4)
  · rw [if_pos hw, Option.some.injEq] at h
    rw [← h]
    exact hw.1
  · rw [if_neg hw] at h
    exact absurd h (by simp)

theorem readBody_roster {k : BitVec 3} {p : PayloadBits} {r : RosterBody}
    (h : readBody k p = some (.roster r)) : r.wellFormed = true := by
  unfold readBody at h
  split at h
  · simp at h
  split at h
  · simp at h
  split at h
  · simp at h
  split at h
  · simp at h
  split at h
  · simp at h
  split at h
  · simp only [Option.map_eq_some_iff, Body.roster.injEq] at h
    obtain ⟨q, hq, rfl⟩ := h
    exact readRoster_wellFormed hq
  split at h
  · unfold readSnap at h
    dsimp only at h
    split at h <;> simp at h
  · simp at h

theorem goodBody_roster {s : State} {f : Frame} {r : RosterBody} (h : s.goodBody = some f)
    (hb : f.body = .roster r) : r.wellFormed = true := by
  unfold State.goodBody at h
  split at h
  · unfold readFrame at h
    dsimp only at h
    split at h
    · simp only [Option.map_eq_some_iff] at h
      obtain ⟨b, hb', he⟩ := h
      subst he
      exact readBody_roster (hb'.trans (congrArg some hb))
    · exact absurd h (by simp)
  · exact absurd h (by simp)

theorem settleFrame_sound (f : Frame) (s : State) (h : s.sound) (hf : s.goodBody = some f) :
    (s.settleFrame f).sound := by
  unfold State.settleFrame
  split
  · next e => exact settleAtMember_sound f s h (by simp [State.copyValid, e, Station.valid])
  · next e => exact settleAtMember_sound f s h (by simp [State.copyValid, e, Station.valid])
  · next e => exact settleAtTransfer_sound f s h e
  · next e =>
    split
    · next r hr =>
      exact toTransfer_sound r s h (by simp [State.copyValid, e, Station.valid])
        (wellFormed_entries (goodBody_roster hf hr))
    · exact h
    · exact h
    · exact h
  · split
    · split
      · exact h
      · exact adriftRemovedBy_sound _ s h
    · exact h
    · exact h
    · exact h
  · exact h

/-! ### The reports and the rest of a complete frame -/

theorem reportBroken_sound (s : State) (h : s.sound) : s.reportBroken.sound := by
  unfold State.reportBroken
  split
  · split
    · exact (modifyHead_local _ s).sound h
    · exact withCtl_sound s _ rfl rfl h
    · exact h
  · exact h

theorem reportUnsettled_sound (t : Tail) (s : State) (h : s.sound) : (s.reportUnsettled t).sound := by
  unfold State.reportUnsettled
  split
  · split
    · exact (modifyHead_local _ s).sound h
    · exact withCtl_sound s _ rfl rfl h
    · unfold State.joinComplete
      split
      · exact withCtl_sound s _ rfl rfl h
      · exact h
  · exact h

theorem verdict_sound (t : Tail) (s : State) (h : s.sound) : (s.verdict t).sound := by
  unfold State.verdict
  split
  · next f hf =>
    split
    · exact settleFrame_sound f s h hf
    · exact reportUnsettled_sound t s h
  · exact reportUnsettled_sound t s h

theorem afterEcho_sound (s : State) (h : s.sound) : s.afterEcho.sound := by
  unfold State.afterEcho
  split
  · split
    · exact toDetached_sound _ _ s h.1.1 h.2.2.1
    · exact computeRoster_sound s h
  · exact h

theorem countAdrift_sound (b : Bool) (s : State) (h : s.sound) : (s.countAdrift b).sound := by
  unfold State.countAdrift
  split
  · exact withCtl_sound s _ rfl rfl h
  · exact h

theorem complete_sound (t : Tail) (s : State) (h : s.sound) : (s.complete t).sound := by
  unfold State.complete
  split
  · exact toAdrift_sound _ _ h.1.1 h.2.2.1
  · exact countAdrift_sound _ _ (afterEcho_sound _ (countMisses_sound _ _ _ (verdict_sound t s h)))

end Sys2Proof.Machine
end

