-- ==== Sys2Proof/Laws/Codec.lean ====
section
/-! SUPPORT. The fields of a frame's bits (Table 11-2, Table 11-3): what each reading of a built body gives. -/

namespace Sys2Proof.Machine

/-! ### Fields of concatenated bits -/

theorem extract_high {n m : Nat} (x : BitVec n) (y : BitVec m) (k l : Nat) (h : m ≤ k) :
    (x ++ y).extractLsb' k l = x.extractLsb' (k - m) l := by
  ext i hi
  simp only [BitVec.getElem_extractLsb', BitVec.getLsbD_append]
  rw [if_neg (by omega), show k + i - m = k - m + i by omega]

theorem extract_low {n m : Nat} (x : BitVec n) (y : BitVec m) (k l : Nat) (h : k + l ≤ m) :
    (x ++ y).extractLsb' k l = y.extractLsb' k l := by
  ext i hi
  simp only [BitVec.getElem_extractLsb', BitVec.getLsbD_append]
  rw [if_pos (by omega)]

theorem bit_high {n m : Nat} (x : BitVec n) (y : BitVec m) (k : Nat) (h : m ≤ k) :
    (x ++ y).getLsbD k = x.getLsbD (k - m) := by
  rw [BitVec.getLsbD_append, if_neg (by omega)]

theorem bit_low {n m : Nat} (x : BitVec n) (y : BitVec m) (k : Nat) (h : k < m) :
    (x ++ y).getLsbD k = y.getLsbD k := by
  rw [BitVec.getLsbD_append, if_pos h]

/-- A field of a field is a field of the whole. -/
theorem extract_extract {n : Nat} (x : BitVec n) (start len k l : Nat) (h : k + l ≤ len) :
    (x.extractLsb' start len).extractLsb' k l = x.extractLsb' (start + k) l := by
  ext i hi
  simp [show k + i < len by omega, ← Nat.add_assoc]

theorem extract_all {n : Nat} (x : BitVec n) : x.extractLsb' 0 n = x := by simp

/-! ### Codes -/

theorem severityOf_code (s : Severity) : severityOf s.code = some s := by cases s <;> rfl

theorem severityOf_lossCode (s : Option Severity) : severityOf (lossCode s) = s := by
  cases s with
  | none => rfl
  | some s => exact severityOf_code s

theorem scopeOf_code (s : Scope) : scopeOf s.code = some s := by cases s <;> rfl

theorem severityOf_eq_some (c : BitVec 2) (s : Severity) : severityOf c = some s ↔ c = s.code := by
  constructor
  · revert c s
    decide
  · rintro rfl
    exact severityOf_code s

theorem severityOf_eq (c : BitVec 2) (s : Option Severity) : severityOf c = s ↔ c = lossCode s := by
  constructor
  · rintro rfl
    revert c
    decide
  · rintro rfl
    exact severityOf_lossCode s

theorem scopeOf_eq_some (c : BitVec 2) (s : Scope) : scopeOf c = some s ↔ c = s.code := by
  constructor
  · revert c s
    decide
  · rintro rfl
    exact scopeOf_code s

/-! ### Payloads -/

theorem report_fields (r : Report) :
    r.payload.extractLsb' 90 6 = r.source ∧ r.payload.extractLsb' 88 2 = r.severity.code
      ∧ r.payload.extractLsb' 80 8 = r.occurrences ∧ r.payload.extractLsb' 48 32 = r.detail
      ∧ r.payload.extractLsb' 32 16 = r.number := by
  unfold Report.payload
  refine ⟨?_, ?_, ?_, ?_, ?_⟩ <;>
  · repeat rw [extract_high _ _ _ _ (by decide)]
    first
    | exact extract_all _
    | (rw [extract_low _ _ _ _ (by decide)]; exact extract_all _)

theorem roster_fields (r : RosterBody) :
    r.payload.extractLsb' 80 16 = r.generation ∧ r.payload.extractLsb' 64 16 = r.members
      ∧ r.payload.extractLsb' 48 16 = r.departing ∧ r.payload.extractLsb' 32 16 = r.newMembers
      ∧ r.payload.extractLsb' 28 4 = r.admitted.getD 0 ∧ r.payload.getLsbD 27 = r.admitted.isSome
      ∧ r.payload.extractLsb' 23 4 = r.dropLimit ∧ r.payload.extractLsb' 21 2 = lossCode r.loss
      ∧ r.payload.extractLsb' 15 6 = r.entries ∧ r.payload.getLsbD 14 = r.withFirst := by
  unfold RosterBody.payload
  refine ⟨?_, ?_, ?_, ?_, ?_, ?_, ?_, ?_, ?_, ?_⟩
  all_goals first
    | (repeat rw [extract_high _ _ _ _ (by decide)]
       first
       | exact extract_all _
       | (rw [extract_low _ _ _ _ (by decide)]; exact extract_all _))
    | (repeat rw [bit_high _ _ _ (by decide)]
       rw [bit_low _ _ _ (by decide)]
       simp)

theorem clear_fields (sc : Scope) (o : Addr) (w : Word) :
    (clearPayload sc o w).extractLsb' 94 2 = sc.code ∧ (clearPayload sc o w).extractLsb' 90 4 = o
      ∧ (clearPayload sc o w).extractLsb' 58 32 = w := by
  unfold clearPayload
  refine ⟨?_, ?_, ?_⟩ <;>
  · repeat rw [extract_high _ _ _ _ (by decide)]
    first
    | exact extract_all _
    | (rw [extract_low _ _ _ _ (by decide)]; exact extract_all _)

/-- RESOLVE's and SNAP's leading field and the 90 bits behind it. -/
theorem leading_fields (n : BitVec 6) (c : BitVec 90) :
    BitVec.extractLsb' (n := 96) 90 6 (n ++ c) = n ∧ BitVec.extractLsb' (n := 96) 0 90 (n ++ c) = c := by
  refine ⟨?_, ?_⟩
  · rw [extract_high _ _ _ _ (by decide)]; exact extract_all _
  · rw [extract_low _ _ _ _ (by decide)]; exact extract_all _

theorem header_fields (h : Header) : readHeader h.content = h := by
  unfold readHeader Header.content
  obtain ⟨t, s, l, d, c⟩ := h
  simp only [Header.mk.injEq]
  refine ⟨?_, ?_, ?_, ?_, ?_⟩
  all_goals first
    | (repeat rw [extract_high _ _ _ _ (by decide)]
       first
       | exact extract_all _
       | (rw [extract_low _ _ _ _ (by decide)]; exact extract_all _))
    | (repeat rw [bit_high _ _ _ (by decide)]
       rw [bit_low _ _ _ (by decide)]
       simp)

theorem first_fields (f : First) :
    f.content.extractLsb' 86 4 = f.origin ∧ f.content.extractLsb' 80 6 = f.source
      ∧ f.content.extractLsb' 78 2 = f.severity.code ∧ f.content.extractLsb' 46 32 = f.settle
      ∧ f.content.extractLsb' 14 32 = f.detail := by
  unfold First.content
  refine ⟨?_, ?_, ?_, ?_, ?_⟩ <;>
  · repeat rw [extract_high _ _ _ _ (by decide)]
    first
    | exact extract_all _
    | (rw [extract_low _ _ _ _ (by decide)]; exact extract_all _)

theorem entry_fields (e : Entry) :
    e.content.extractLsb' 86 4 = e.origin ∧ e.content.extractLsb' 80 6 = e.source
      ∧ e.content.extractLsb' 78 2 = e.severity.code ∧ e.content.extractLsb' 70 8 = e.occurrences
      ∧ e.content.extractLsb' 38 32 = e.firstSettle ∧ e.content.extractLsb' 6 32 = e.detail
      ∧ e.content.getLsbD 5 = e.absent := by
  unfold Entry.content
  refine ⟨?_, ?_, ?_, ?_, ?_, ?_, ?_⟩
  all_goals first
    | (repeat rw [extract_high _ _ _ _ (by decide)]
       first
       | exact extract_all _
       | (rw [extract_low _ _ _ _ (by decide)]; exact extract_all _))
    | (repeat rw [bit_high _ _ _ (by decide)]
       rw [bit_low _ _ _ (by decide)]
       simp)

/-! ### Frames -/

theorem content_fields (f : Frame) :
    f.content.extractLsb' 103 3 = f.urgency ∧ f.content.extractLsb' 99 4 = f.sender
      ∧ f.content.extractLsb' 96 3 = f.body.kind ∧ f.content.extractLsb' 0 96 = f.body.payload := by
  unfold Frame.content
  refine ⟨?_, ?_, ?_, ?_⟩ <;>
  · repeat rw [extract_high _ _ _ _ (by decide)]
    first
    | exact extract_all _
    | (rw [extract_low _ _ _ _ (by decide)]; exact extract_all _)

theorem bits_fields (f : Frame) :
    f.bits.extractLsb' 16 106 = f.content ∧ f.bits.extractLsb' 0 16 = frameCheck f.content := by
  unfold Frame.bits
  refine ⟨?_, ?_⟩
  · rw [extract_high _ _ _ _ (by decide)]; exact extract_all _
  · rw [extract_low _ _ _ _ (by decide)]; exact extract_all _

end Sys2Proof.Machine
end

