-- ==== Sys2Proof/Laws/Fields.lean ====
section
/-! SUPPORT. The fields of the state after the shared operations that change few of them, one lemma for each field. -/

namespace Sys2Proof.Machine

variable (s : State)

/-! ### Alert causes -/

theorem State.setCauseIf_eq (b : Bool) (c : Cause) : s.setCauseIf b c
    = s.withAlerts (if b then Alerts.of (s.alerts.pending ||| c.bit) s.alerts.mask else s.alerts) := by
  unfold State.setCauseIf; split <;> rfl

@[simp] theorem State.setCause_power (c : Cause) : (s.setCause c).power = s.power := rfl
@[simp] theorem State.setCause_straps (c : Cause) : (s.setCause c).straps = s.straps := rfl
@[simp] theorem State.setCause_items (c : Cause) : (s.setCause c).items = s.items := rfl
@[simp] theorem State.setCause_monitor (c : Cause) : (s.setCause c).monitor = s.monitor := rfl
@[simp] theorem State.setCause_log (c : Cause) : (s.setCause c).log = s.log := rfl
@[simp] theorem State.setCause_queue (c : Cause) : (s.setCause c).queue = s.queue := rfl
@[simp] theorem State.setCause_engine (c : Cause) : (s.setCause c).engine = s.engine := rfl
@[simp] theorem State.setCause_chassis (c : Cause) : (s.setCause c).chassis = s.chassis := rfl
@[simp] theorem State.setCause_ctl (c : Cause) : (s.setCause c).ctl = s.ctl := rfl
@[simp] theorem State.setCause_outputs (c : Cause) : (s.setCause c).outputs = s.outputs := rfl
@[simp] theorem State.setCause_port (c : Cause) : (s.setCause c).port = s.port := rfl
@[simp] theorem State.setCause_freeCount (c : Cause) : (s.setCause c).freeCount = s.freeCount := rfl
@[simp] theorem State.setCause_pending (c : Cause) : (s.setCause c).pending = s.pending := rfl
@[simp] theorem State.setCause_causes (c : Cause) : (s.setCause c).alerts.pending = s.alerts.pending ||| c.bit := rfl
@[simp] theorem State.setCause_mask (c : Cause) : (s.setCause c).alerts.mask = s.alerts.mask := rfl

@[simp] theorem State.setCauseIf_power (b : Bool) (c : Cause) : (s.setCauseIf b c).power = s.power := by
  rw [State.setCauseIf_eq]; rfl
@[simp] theorem State.setCauseIf_straps (b : Bool) (c : Cause) : (s.setCauseIf b c).straps = s.straps := by
  rw [State.setCauseIf_eq]; rfl
@[simp] theorem State.setCauseIf_items (b : Bool) (c : Cause) : (s.setCauseIf b c).items = s.items := by
  rw [State.setCauseIf_eq]; rfl
@[simp] theorem State.setCauseIf_monitor (b : Bool) (c : Cause) : (s.setCauseIf b c).monitor = s.monitor := by
  rw [State.setCauseIf_eq]; rfl
@[simp] theorem State.setCauseIf_log (b : Bool) (c : Cause) : (s.setCauseIf b c).log = s.log := by
  rw [State.setCauseIf_eq]; rfl
@[simp] theorem State.setCauseIf_queue (b : Bool) (c : Cause) : (s.setCauseIf b c).queue = s.queue := by
  rw [State.setCauseIf_eq]; rfl
@[simp] theorem State.setCauseIf_engine (b : Bool) (c : Cause) : (s.setCauseIf b c).engine = s.engine := by
  rw [State.setCauseIf_eq]; rfl
@[simp] theorem State.setCauseIf_chassis (b : Bool) (c : Cause) : (s.setCauseIf b c).chassis = s.chassis := by
  rw [State.setCauseIf_eq]; rfl
@[simp] theorem State.setCauseIf_ctl (b : Bool) (c : Cause) : (s.setCauseIf b c).ctl = s.ctl := by
  rw [State.setCauseIf_eq]; rfl
@[simp] theorem State.setCauseIf_outputs (b : Bool) (c : Cause) : (s.setCauseIf b c).outputs = s.outputs := by
  rw [State.setCauseIf_eq]; rfl
@[simp] theorem State.setCauseIf_port (b : Bool) (c : Cause) : (s.setCauseIf b c).port = s.port := by
  rw [State.setCauseIf_eq]; rfl
@[simp] theorem State.setCauseIf_freeCount (b : Bool) (c : Cause) : (s.setCauseIf b c).freeCount = s.freeCount := by
  rw [State.setCauseIf_eq]; rfl
@[simp] theorem State.setCauseIf_pending (b : Bool) (c : Cause) : (s.setCauseIf b c).pending = s.pending := by
  rw [State.setCauseIf_eq]; rfl
@[simp] theorem State.setCauseIf_causes (b : Bool) (c : Cause) :
    (s.setCauseIf b c).alerts.pending = s.alerts.pending ||| (if b then c.bit else 0) := by
  unfold State.setCauseIf; cases b <;> simp
@[simp] theorem State.setCauseIf_mask (b : Bool) (c : Cause) : (s.setCauseIf b c).alerts.mask = s.alerts.mask := by
  unfold State.setCauseIf; cases b <;> rfl

/-! ### The driven level (R37) and the level of the copy (R26, R35) -/

@[simp] theorem State.redrive_power : s.redrive.power = s.power := by
  unfold State.redrive; simp
@[simp] theorem State.redrive_straps : s.redrive.straps = s.straps := by
  unfold State.redrive; simp
@[simp] theorem State.redrive_items : s.redrive.items = s.items := by
  unfold State.redrive; simp
@[simp] theorem State.redrive_monitor : s.redrive.monitor = s.monitor := by
  unfold State.redrive; simp
@[simp] theorem State.redrive_log : s.redrive.log = s.log := by
  unfold State.redrive; simp
@[simp] theorem State.redrive_queue : s.redrive.queue = s.queue := by
  unfold State.redrive; simp
@[simp] theorem State.redrive_engine : s.redrive.engine = s.engine := by
  unfold State.redrive; simp
@[simp] theorem State.redrive_chassis : s.redrive.chassis = s.chassis := by
  unfold State.redrive; simp
@[simp] theorem State.redrive_ctl : s.redrive.ctl = s.ctl := by
  unfold State.redrive; simp
@[simp] theorem State.redrive_port : s.redrive.port = s.port := by
  unfold State.redrive; simp
@[simp] theorem State.redrive_freeCount : s.redrive.freeCount = s.freeCount := by
  unfold State.redrive; simp
@[simp] theorem State.redrive_pending : s.redrive.pending = s.pending := by
  unfold State.redrive; simp
@[simp] theorem State.redrive_outputs : s.redrive.outputs = s.outputs.drive s.levelToDrive := by
  unfold State.redrive; simp
@[simp] theorem State.redrive_causes :
    s.redrive.alerts.pending = s.alerts.pending ||| (if s.levelToDrive = s.outputs.driven then 0 else 0x40) := by
  unfold State.redrive; by_cases h : s.levelToDrive = s.outputs.driven <;> simp [h, Cause.bit]
@[simp] theorem State.redrive_mask : s.redrive.alerts.mask = s.alerts.mask := by
  unfold State.redrive; simp

theorem State.levelToDrive_valid (h : s.copyValid = true) : s.levelToDrive = s.chassis.level := by
  unfold State.levelToDrive; rw [if_pos h]
theorem State.levelToDrive_invalid (h : s.copyValid = false) :
    s.levelToDrive = policyLevel s.outputs.policy s.outputs.lastKnown := by
  unfold State.levelToDrive; rw [if_neg (by simp [h])]

/-! ### A body passed on (R47) -/

/-- A good body passed on changes the Frame Engine in the foreign-reported set alone. -/
theorem State.passOn_engine (f : Frame) :
    (s.passOn f).engine = { s.engine with foreign := (s.passOn f).engine.foreign } := by
  have h1 (t : State) : (t.hearDuplicate f).engine = t.engine := by
    unfold State.hearDuplicate
    split
    · exact (busFault_local _ _).engine
    · rfl
  have h2 (t : State) : (t.hearForeign f).engine = { t.engine with foreign := (t.hearForeign f).engine.foreign } := by
    unfold State.hearForeign
    split
    · rw [(busFault_local _ _).engine]
      rfl
    · rfl
  have h3 (t : State) : (t.hearJoining f).engine = t.engine := by
    unfold State.hearJoining
    repeat' split
    all_goals rfl
  have h4 (t : State) : (t.hearJoin f).engine = t.engine := by
    unfold State.hearJoin
    repeat' split
    all_goals rfl
  have h := h2 (s.hearDuplicate f)
  rw [h1] at h
  unfold State.passOn
  rw [h4, h3]
  exact h

/-! ### Leaving the chassis (R18, R75) -/

@[simp] theorem State.headBack_power (q : Queue) : (s.headBack q).power = s.power := by
  unfold State.headBack; split <;> rfl
@[simp] theorem State.headBack_straps (q : Queue) : (s.headBack q).straps = s.straps := by
  unfold State.headBack; split <;> rfl
@[simp] theorem State.headBack_items (q : Queue) : (s.headBack q).items = s.items := by
  unfold State.headBack; split <;> rfl
@[simp] theorem State.headBack_monitor (q : Queue) : (s.headBack q).monitor = s.monitor := by
  unfold State.headBack; split <;> rfl
@[simp] theorem State.headBack_engine (q : Queue) : (s.headBack q).engine = s.engine := by
  unfold State.headBack; split <;> rfl
@[simp] theorem State.headBack_chassis (q : Queue) : (s.headBack q).chassis = s.chassis := by
  unfold State.headBack; split <;> rfl
@[simp] theorem State.headBack_ctl (q : Queue) : (s.headBack q).ctl = s.ctl := by
  unfold State.headBack; split <;> rfl
@[simp] theorem State.headBack_outputs (q : Queue) : (s.headBack q).outputs = s.outputs := by
  unfold State.headBack; split <;> rfl
@[simp] theorem State.headBack_alerts (q : Queue) : (s.headBack q).alerts = s.alerts := by
  unfold State.headBack; split <;> rfl
@[simp] theorem State.headBack_port (q : Queue) : (s.headBack q).port = s.port := by
  unfold State.headBack; split <;> rfl
@[simp] theorem State.headBack_freeCount (q : Queue) : (s.headBack q).freeCount = s.freeCount := by
  unfold State.headBack; split <;> rfl
@[simp] theorem State.headBack_pending (q : Queue) : (s.headBack q).pending = s.pending := by
  unfold State.headBack; split <;> rfl
@[simp] theorem State.headBack_queue (q : Queue) : (s.headBack q).queue = q := by
  unfold State.headBack; split <;> rfl

@[simp] theorem State.returnHead_power : s.returnHead.power = s.power := s.headBack_power _
@[simp] theorem State.returnHead_straps : s.returnHead.straps = s.straps := s.headBack_straps _
@[simp] theorem State.returnHead_items : s.returnHead.items = s.items := s.headBack_items _
@[simp] theorem State.returnHead_monitor : s.returnHead.monitor = s.monitor := s.headBack_monitor _
@[simp] theorem State.returnHead_engine : s.returnHead.engine = s.engine := s.headBack_engine _
@[simp] theorem State.returnHead_chassis : s.returnHead.chassis = s.chassis := s.headBack_chassis _
@[simp] theorem State.returnHead_ctl : s.returnHead.ctl = s.ctl := s.headBack_ctl _
@[simp] theorem State.returnHead_outputs : s.returnHead.outputs = s.outputs := s.headBack_outputs _
@[simp] theorem State.returnHead_alerts : s.returnHead.alerts = s.alerts := s.headBack_alerts _
@[simp] theorem State.returnHead_port : s.returnHead.port = s.port := s.headBack_port _
@[simp] theorem State.returnHead_freeCount : s.returnHead.freeCount = s.freeCount := s.headBack_freeCount _
@[simp] theorem State.returnHead_pending : s.returnHead.pending = s.pending := s.headBack_pending _
@[simp] theorem State.returnHead_queue : s.returnHead.queue = s.queue.returnHead := s.headBack_queue _

@[simp] theorem State.retryHead_power : s.retryHead.power = s.power := s.headBack_power _
@[simp] theorem State.retryHead_straps : s.retryHead.straps = s.straps := s.headBack_straps _
@[simp] theorem State.retryHead_items : s.retryHead.items = s.items := s.headBack_items _
@[simp] theorem State.retryHead_monitor : s.retryHead.monitor = s.monitor := s.headBack_monitor _
@[simp] theorem State.retryHead_engine : s.retryHead.engine = s.engine := s.headBack_engine _
@[simp] theorem State.retryHead_chassis : s.retryHead.chassis = s.chassis := s.headBack_chassis _
@[simp] theorem State.retryHead_ctl : s.retryHead.ctl = s.ctl := s.headBack_ctl _
@[simp] theorem State.retryHead_outputs : s.retryHead.outputs = s.outputs := s.headBack_outputs _
@[simp] theorem State.retryHead_alerts : s.retryHead.alerts = s.alerts := s.headBack_alerts _
@[simp] theorem State.retryHead_port : s.retryHead.port = s.port := s.headBack_port _
@[simp] theorem State.retryHead_freeCount : s.retryHead.freeCount = s.freeCount := s.headBack_freeCount _
@[simp] theorem State.retryHead_pending : s.retryHead.pending = s.pending := s.headBack_pending _
@[simp] theorem State.retryHead_queue : s.retryHead.queue = s.queue.retryHead := s.headBack_queue _

@[simp] theorem State.abandon_power : s.abandon.power = s.power := s.returnHead_power
@[simp] theorem State.abandon_straps : s.abandon.straps = s.straps := s.returnHead_straps
@[simp] theorem State.abandon_items : s.abandon.items = s.items := s.returnHead_items
@[simp] theorem State.abandon_monitor : s.abandon.monitor = s.monitor := s.returnHead_monitor
@[simp] theorem State.abandon_outputs : s.abandon.outputs = s.outputs := s.returnHead_outputs
@[simp] theorem State.abandon_alerts : s.abandon.alerts = s.alerts := s.returnHead_alerts
@[simp] theorem State.abandon_port : s.abandon.port = s.port := s.returnHead_port
@[simp] theorem State.abandon_freeCount : s.abandon.freeCount = s.freeCount := s.returnHead_freeCount
@[simp] theorem State.abandon_pending : s.abandon.pending = s.pending := s.returnHead_pending
@[simp] theorem State.abandon_queue : s.abandon.queue = s.queue.returnHead := s.returnHead_queue
@[simp] theorem State.abandon_log : s.abandon.log = s.returnHead.log := rfl
@[simp] theorem State.abandon_chassis : s.abandon.chassis = Chassis.empty := rfl
@[simp] theorem State.abandon_engine : s.abandon.engine = { s.engine with foreign := 0 } := by
  show { s.returnHead.engine with foreign := 0 } = _; rw [State.returnHead_engine]
@[simp] theorem State.abandon_ctl : s.abandon.ctl
    = { s.ctl with duties := none, admission := none, transfer := none, joinOwed := false } := by
  show { s.returnHead.ctl with duties := none, admission := none, transfer := none, joinOwed := false } = _
  rw [State.returnHead_ctl]

/-! ### The roster station (R84) and the miss counts (R55) -/

theorem State.computeRoster_eq (h : s.copyValid = true) : s.computeRoster = s.withCtl { s.ctl with
    duties := if s.chassis.rosterStation = some s.self then some (s.ctl.duties.getD Duties.fresh) else none } := by
  unfold State.computeRoster; rw [h]; simp only [true_and]; split <;> rfl
theorem State.countMisses_eq (b : Bool) (echo : StationSet) : s.countMisses b echo
    = s.withChassis (if b && s.ctl.station.inStep then s.chassis.countMisses echo else s.chassis) := by
  unfold State.countMisses; split <;> rfl

/-! ### The bytes that the port shifts out (R150, R178) -/

@[simp] theorem State.shifts_power (n : Nat) : (s.shifts n).power = s.power := rfl
@[simp] theorem State.shifts_straps (n : Nat) : (s.shifts n).straps = s.straps := rfl
@[simp] theorem State.shifts_items (n : Nat) : (s.shifts n).items = s.items := rfl
@[simp] theorem State.shifts_monitor (n : Nat) : (s.shifts n).monitor = s.monitor := rfl
@[simp] theorem State.shifts_log (n : Nat) : (s.shifts n).log = s.log := rfl
@[simp] theorem State.shifts_queue (n : Nat) : (s.shifts n).queue = s.queue := rfl
@[simp] theorem State.shifts_engine (n : Nat) : (s.shifts n).engine = s.engine := rfl
@[simp] theorem State.shifts_chassis (n : Nat) : (s.shifts n).chassis = s.chassis := rfl
@[simp] theorem State.shifts_ctl (n : Nat) : (s.shifts n).ctl = s.ctl := rfl
@[simp] theorem State.shifts_outputs (n : Nat) : (s.shifts n).outputs = s.outputs := rfl
@[simp] theorem State.shifts_alerts (n : Nat) : (s.shifts n).alerts = s.alerts := rfl
@[simp] theorem State.shifts_pending (n : Nat) : (s.shifts n).pending = s.pending := rfl
@[simp] theorem State.shifts_response (n : Nat) : (s.shifts n).port.response = s.port.response := rfl
@[simp] theorem State.shifts_count (n : Nat) : (s.shifts n).port.count = s.port.count := rfl
@[simp] theorem State.shifts_clear (n : Nat) : (s.shifts n).port.clear = s.port.clear := rfl
@[simp] theorem State.shifts_straddle (n : Nat) : (s.shifts n).port.straddle = none := rfl

/-- Chip select at a reset's edge changes what is held of the transaction in progress, and nothing else. -/
theorem State.cutPort_eq (c : Option Nat) : ∃ x k, s.cutPort c = (s.withPort { s.port with straddle := x }).withFree k := by
  cases c with
  | none => exact ⟨none, s.freeCount, rfl⟩
  | some bits => exact ⟨_, _, rfl⟩

@[simp] theorem State.cutPort_power (c : Option Nat) : (s.cutPort c).power = s.power := by cases c <;> rfl
@[simp] theorem State.cutPort_straps (c : Option Nat) : (s.cutPort c).straps = s.straps := by cases c <;> rfl
@[simp] theorem State.cutPort_items (c : Option Nat) : (s.cutPort c).items = s.items := by cases c <;> rfl
@[simp] theorem State.cutPort_monitor (c : Option Nat) : (s.cutPort c).monitor = s.monitor := by cases c <;> rfl
@[simp] theorem State.cutPort_log (c : Option Nat) : (s.cutPort c).log = s.log := by cases c <;> rfl
@[simp] theorem State.cutPort_queue (c : Option Nat) : (s.cutPort c).queue = s.queue := by cases c <;> rfl
@[simp] theorem State.cutPort_engine (c : Option Nat) : (s.cutPort c).engine = s.engine := by cases c <;> rfl
@[simp] theorem State.cutPort_chassis (c : Option Nat) : (s.cutPort c).chassis = s.chassis := by cases c <;> rfl
@[simp] theorem State.cutPort_ctl (c : Option Nat) : (s.cutPort c).ctl = s.ctl := by cases c <;> rfl
@[simp] theorem State.cutPort_outputs (c : Option Nat) : (s.cutPort c).outputs = s.outputs := by cases c <;> rfl
@[simp] theorem State.cutPort_alerts (c : Option Nat) : (s.cutPort c).alerts = s.alerts := by cases c <;> rfl
@[simp] theorem State.cutPort_pending (c : Option Nat) : (s.cutPort c).pending = s.pending := by cases c <;> rfl
@[simp] theorem State.cutPort_response (c : Option Nat) : (s.cutPort c).port.response = s.port.response := by cases c <;> rfl
@[simp] theorem State.cutPort_count (c : Option Nat) : (s.cutPort c).port.count = s.port.count := by cases c <;> rfl
@[simp] theorem State.cutPort_clear (c : Option Nat) : (s.cutPort c).port.clear = s.port.clear := by cases c <;> rfl
@[simp] theorem State.cutPort_sdo (c : Option Nat) : (s.cutPort c).port.sdo = s.port.sdo := by cases c <;> rfl

end Sys2Proof.Machine
end

