-- ==== Sys2Proof/Laws/Operations.lean ====
section
/-! SUPPORT. The conditions of Safety.lean through the other shared operations: resets, frames, the port. -/

namespace Sys2Proof.Machine

theorem reset_sound : State.reset.sound :=
  ⟨⟨rfl, rfl, rfl, rfl⟩, ⟨rfl, fun h => absurd h (by decide)⟩,
    ⟨⟨Nat.zero_le _, List.Pairwise.nil⟩, ⟨Nat.zero_le _, List.Pairwise.nil, List.Pairwise.nil⟩,
      ⟨Nat.zero_le _, List.nodup_nil, fun _ => rfl⟩⟩, fun x hx => absurd (show none = some x from hx) (by simp)⟩

theorem afterStraps_sound (s : State) (h : s.sound) : s.afterStraps.sound := by
  unfold State.afterStraps
  split
  · exact withCtl_sound s _ rfl rfl h
  · exact h

theorem boardReset_sound (p : Nat) (s : State) (h : s.sound) : (s.boardReset p).sound := by
  have ha : (s.boardReset p).alerts.ok := by show Alerts.reset.ok; unfold Alerts.ok; decide
  refine ⟨⟨ha, Outputs.drive_ok _ _⟩, ⟨rfl, fun h => absurd h (by simp [State.copyValid, State.boardReset, Ctl.reset,
    Station.valid])⟩, ⟨⟨Nat.zero_le _, List.Pairwise.nil⟩, s.queue.ok_boardReset, s.log.ok_boardReset h.2.2.1.2.2⟩,
    fun x hx => absurd (show none = some x from hx) (by simp)⟩

theorem askRoster_sound (s : State) (h : s.sound) : s.askRoster.sound := by
  unfold State.askRoster
  split
  · split
    · exact h
    · exact withCtl_sound s _ rfl rfl h
  · exact h

theorem hearStart_sound (s : State) (h : s.sound) : s.hearStart.sound := by
  unfold State.hearStart
  split
  · exact withCtl_sound s _ rfl rfl h
  · exact h

theorem beginOwn_sound (p : Path) (f : Frame) (s : State) (h : s.sound) : (s.beginOwn p f).sound := by
  unfold State.beginOwn
  dsimp only
  split
  · exact (startHead_local _).sound (withEngine_sound s _ h)
  · exact h
  · exact h

theorem hearForeign_sound (f : Frame) (s : State) (h : s.sound) : (s.hearForeign f).sound := by
  unfold State.hearForeign
  split
  · exact (busFault_local _ _).sound (withEngine_sound s _ h)
  · exact h

theorem hearJoining_sound (f : Frame) (s : State) (h : s.sound) : (s.hearJoining f).sound := by
  unfold State.hearJoining
  split
  · split
    · split
      · exact withCtl_sound s _ rfl rfl h
      · exact h
    · split
      · split
        · exact h
        · exact withCtl_sound s _ rfl rfl h
      · exact withCtl_sound s _ rfl rfl h
  · exact h

theorem hearJoin_sound (f : Frame) (s : State) (h : s.sound) : (s.hearJoin f).sound := by
  unfold State.hearJoin
  split
  · split
    · exact withCtl_sound s _ rfl rfl h
    · exact h
  · exact h

theorem passOn_sound (f : Frame) (s : State) (h : s.sound) : (s.passOn f).sound :=
  hearJoin_sound f _ (hearJoining_sound f _ (hearForeign_sound f _ ((hearDuplicate_local f s).sound h)))

theorem found_sound (s : State) (h : s.sound) : s.found.sound :=
  withCtl_sound _ _ rfl rfl (toMember_sound _ h.1.1 ⟨⟨Nat.zero_le _, List.Pairwise.nil⟩, h.2.2.1.2⟩)

theorem retryJoin_sound (s : State) (h : s.sound) : s.retryJoin.sound := withCtl_sound s _ rfl rfl h

/-! ### The port -/

theorem shifts_sound (n : Nat) (s : State) (h : s.sound) : (s.shifts n).sound := h

theorem cutPort_sound (c : Option Nat) (s : State) (h : s.sound) : (s.cutPort c).sound := by
  cases c <;> exact h

/-- A transaction keeps the conditions when the effect of its command does. -/
theorem transact_sound (code : Byte) (n : Nat) (act : State → Reply) (s : State) (h : s.sound)
    (ha : ∀ t : State, t.sound → (act t).state.sound) : (s.transact code n act).sound := by
  have hs := shifts_sound n _ (settleDue_sound s h)
  unfold State.transact
  dsimp only
  split
  · exact ha _ hs
  · exact hs

theorem withByte_sound {α : Type} (rest : List Byte) (range : Byte → Option α) (act : α → State → Reply)
    (ha : ∀ v, ∀ t : State, t.sound → (act v t).state.sound) (s : State) (h : s.sound) :
    (withByte rest range act s).state.sound := by
  unfold withByte
  split
  · exact h
  · split
    · exact ha _ _ h
    · exact h

theorem locked_sound (write : State → State)
    (hw : ∀ t : State, t.sound → t.ctl.station = .detached → (write t).sound) (s : State) (h : s.sound) :
    (locked write s).state.sound := by
  unfold locked
  split
  · next hd => exact hw s h hd
  · exact h

theorem offerNotice_sound (a : Answer) (s : State) (ha : s.queue.ok → a.queue.ok) (h : s.sound) :
    (offerNotice a s).state.sound := by
  unfold offerNotice
  split
  · exact (answered_local a s ha).sound h
  · exact h

theorem readCopy_state (data : State → List Byte) (s : State) : (readCopy data s).state = s := by
  unfold readCopy
  split <;> rfl

theorem setStation_sound {α : Type} (rest : List Byte) (range : Byte → Option α) (write : α → State → State)
    (hw : ∀ v, ∀ t : State, t.sound → t.ctl.station = .detached → (write v t).sound) (s : State) (h : s.sound) :
    (setStation rest range write s).state.sound :=
  withByte_sound rest range _ (fun v t ht => locked_sound _ (hw v) t ht) s h

theorem setSource_sound {α : Type} (source : Byte) (rest : List Byte) (range : Byte → Option α)
    (write : Fin 32 → α → State → State)
    (hw : ∀ n v, ∀ t : State, t.sound → t.ctl.station = .detached → (write n v t).sound) (s : State) (h : s.sound) :
    (setSource source rest range write s).state.sound := by
  unfold setSource
  split
  · exact withByte_sound rest range _ (fun v t ht => locked_sound _ (hw _ v) t ht) s h
  · exact h

theorem setLineItem_sound {α : Type} (source : Byte) (rest : List Byte) (range : Byte → Option α)
    (write : Fin 24 → α → State → State)
    (hw : ∀ n v, ∀ t : State, t.sound → t.ctl.station = .detached → (write n v t).sound) (s : State) (h : s.sound) :
    (setLineItem source rest range write s).state.sound := by
  unfold setLineItem
  split
  · exact withByte_sound rest range _ (fun v t ht => locked_sound _ (hw _ v) t ht) s h
  · exact h

/-- A write of the detached-level policy at a station without a valid copy. -/
theorem setPolicy_sound (i : Items) (p : Policy) (s : State) (h : s.sound) (hd : s.ctl.station = .detached) :
    (((s.withItems i).withOutputs { s.outputs with policy := p }).redrive).sound := by
  have ht : s.ctl.transfer = none := no_transfer h.2.2.2 (by rw [hd]; decide)
  exact redrive_sound _ h.1.1 h.2.2.1 (State.copyFollows_of_invalid (by simp [State.copyValid, hd, Station.valid])) ht

/-- A write of the alert mask. -/
theorem setMask_sound (i : Items) (m : Byte) (s : State) (h : s.sound) :
    ((s.withItems i).withAlerts (Alerts.of s.alerts.pending m)).sound := ⟨⟨rfl, h.1.2⟩, h.2⟩

theorem clearAlerts_sound (s : State) (h : s.sound) : (s.withAlerts (Alerts.of 0 s.alerts.mask)).sound :=
  ⟨⟨rfl, h.1.2⟩, h.2⟩


/-! ### Events due inside the station -/

/-- Where nothing is due, nothing comes before a command. -/
theorem settleDue_of_nothingDue {s : State} (h : s.nothingDue) : s.settleDue = s := by
  obtain ⟨hq, hb, hr, ha⟩ := h
  have h1 : s.fireAging = s := by
    unfold State.fireAging
    split
    · next x hx => rw [if_neg (by rw [(hq x hx).1]; decide)]
    · rfl
  have h2 : s.fireBreaks = s := by unfold State.fireBreaks; rw [if_neg (by omega)]
  have h3 : s.fireRetry = s := by
    unfold State.fireRetry Queue.exhausted
    split
    · next x hx =>
      rw [if_neg]
      have := (hq x hx).2
      simp only [decide_eq_true_eq]
      omega
    · rfl
  have h4 : s.fireRosterRetry = s := by
    unfold State.fireRosterRetry Ctl.exhausted
    split
    · next x hx =>
      rw [if_neg]
      have := hr x hx
      simp only [decide_eq_true_eq]
      omega
    · rfl
  have h5 : s.fireAdriftCount = s := by
    unfold State.fireAdriftCount
    rw [if_neg]
    rintro ⟨e, hn⟩
    have := ha e
    omega
  unfold State.settleDue
  rw [h1, h2, h3, h4, h5]

/-- No event due inside the station touches supply or RESET. -/
theorem settleDue_power (s : State) : s.settleDue.power = s.power := by
  have hd (t : State) (code : Word) : (t.toAdrift code).power = t.power := by
    unfold State.toAdrift
    rw [(assertSource_local _ _ _).power]
    simp
  have h1 : s.fireAging.power = s.power := (fireAging_local s).power
  have h2 (t : State) : t.fireBreaks.power = t.power := by
    unfold State.fireBreaks
    split
    · rw [(busFault_local _ _).power]
      simp
    · rfl
  have h3 (t : State) : t.fireRetry.power = t.power := by
    unfold State.fireRetry
    split
    · rw [hd, State.retryHead_power]
    · rfl
  have h4 (t : State) : t.fireRosterRetry.power = t.power := by
    unfold State.fireRosterRetry
    split
    · rw [hd]
    · rfl
  have h5 (t : State) : t.fireAdriftCount.power = t.power := by
    unfold State.fireAdriftCount State.exitAdrift State.toDetached
    split
    · simp
    · rfl
  unfold State.settleDue
  rw [h5, h4, h3, h2, h1]

end Sys2Proof.Machine
end

