-- ==== Sys2Proof/Laws/Legal.lean ====
section
/-! SUPPORT. `State.legal` through the shared operations: the roster duties belong to a valid copy, and the station items
keep their ranges. -/

namespace Sys2Proof.Machine

/-- The items are kept, and a copy that is not valid has no duties. -/
theorem legal_keep {s t : State} (h : s.legal) (hi : t.items = s.items)
    (hd : t.copyValid = false → t.ctl.duties = none) : t.legal := by
  unfold State.legal; rw [hi]; exact ⟨hd, h.2⟩

/-- The items, the station state and the duties are kept. -/
theorem legal_same {s t : State} (h : s.legal) (hi : t.items = s.items) (hs : t.ctl.station = s.ctl.station)
    (hd : t.ctl.duties = s.ctl.duties) : t.legal :=
  legal_keep h hi (fun hv => by rw [hd]; exact h.1 (by unfold State.copyValid at hv ⊢; rwa [hs] at hv))

theorem Local.legal {s t : State} (h : Local s t) (x : s.legal) : t.legal :=
  legal_same x h.items (by rw [h.ctl]) (by rw [h.ctl])

theorem reset_legal : State.reset.legal := ⟨fun _ => rfl, by decide, by decide, by decide⟩

/-- The default items are in range. -/
theorem legal_default {t : State} (hi : t.items = Items.default) (hd : t.ctl.duties = none) : t.legal := by
  unfold State.legal; rw [hi]; exact ⟨fun _ => hd, by decide, by decide, by decide⟩

theorem toAdrift_legal (d : Word) (s : State) (h : s.legal) : (s.toAdrift d).legal :=
  (assertSource_local _ _ _).legal (legal_keep h (by simp) (fun _ => by simp))

theorem toDetached_legal (c : Removal) (j : Bool) (s : State) (h : s.legal) : (s.toDetached c j).legal :=
  legal_keep h (by simp [State.toDetached]) (fun _ => by simp [State.toDetached])

theorem computeRoster_legal (s : State) (h : s.legal) : s.computeRoster.legal := by
  unfold State.computeRoster
  split
  · next hv =>
    refine legal_keep h rfl (fun hn => ?_)
    have : s.copyValid = false := hn
    simp [hv.1] at this
  · exact legal_keep h rfl (fun _ => rfl)

theorem requeueUnsent_legal (s : State) (h : s.legal) : s.requeueUnsent.legal := (requeueUnsent_local s).legal h

theorem toMember_legal (s : State) (h : s.legal) : s.toMember.legal := by
  refine requeueUnsent_legal _ (computeRoster_legal _ (legal_keep h (by simp [State.relevel]) (fun hn => ?_)))
  simp [State.copyValid, State.relevel, Station.valid] at hn

theorem toJoining_legal (s : State) (h : s.legal) (hd : s.ctl.station = .detached) : s.toJoining.legal :=
  legal_keep h rfl (fun _ => h.1 (by simp [State.copyValid, hd, Station.valid]))

theorem exitAdrift_legal (s : State) (h : s.legal) : s.exitAdrift.legal := toDetached_legal _ _ s h

theorem fireBreaks_legal (s : State) (h : s.legal) : s.fireBreaks.legal := by
  unfold State.fireBreaks
  split
  · exact (busFault_local _ _).legal (legal_same h rfl rfl rfl)
  · exact h

theorem fireRetry_legal (s : State) (h : s.legal) : s.fireRetry.legal := by
  unfold State.fireRetry
  split
  · exact toAdrift_legal _ _ ((retryHead_local s).legal h)
  · exact h

theorem fireRosterRetry_legal (s : State) (h : s.legal) : s.fireRosterRetry.legal := by
  unfold State.fireRosterRetry
  split
  · exact toAdrift_legal _ _ h
  · exact h

theorem fireAdriftCount_legal (s : State) (h : s.legal) : s.fireAdriftCount.legal := by
  unfold State.fireAdriftCount
  split
  · exact exitAdrift_legal _ h
  · exact h

theorem settleDue_legal (s : State) (h : s.legal) : s.settleDue.legal :=
  fireAdriftCount_legal _ (fireRosterRetry_legal _ (fireRetry_legal _ (fireBreaks_legal _
    ((fireAging_local s).legal h))))

/-! ### Resets and the bus -/

theorem afterStraps_legal (s : State) (h : s.legal) : s.afterStraps.legal := by
  unfold State.afterStraps
  split
  · exact legal_same h rfl rfl rfl
  · exact h

theorem boardReset_legal (p : Nat) (s : State) : (s.boardReset p).legal := legal_default rfl rfl

/-- Duties that change while they are held, or stay absent. -/
theorem legal_map {s t : State} (h : s.legal) (hi : t.items = s.items) (hs : t.ctl.station = s.ctl.station)
    (hd : s.ctl.duties = none → t.ctl.duties = none) : t.legal :=
  legal_keep h hi (fun hv => hd (h.1 (by unfold State.copyValid at hv ⊢; rwa [hs] at hv)))

theorem askRoster_legal (s : State) (h : s.legal) : s.askRoster.legal := by
  unfold State.askRoster
  split
  · next d hd =>
    split
    · exact h
    · exact legal_map h rfl rfl (fun hn => by rw [hd] at hn; cases hn)
  · exact h

theorem hearStart_legal (s : State) (h : s.legal) : s.hearStart.legal := by
  unfold State.hearStart
  split
  · exact legal_same h rfl rfl rfl
  · exact h

theorem beginOwn_legal (p : Path) (f : Frame) (s : State) (h : s.legal) : (s.beginOwn p f).legal := by
  unfold State.beginOwn
  dsimp only
  split
  · exact (startHead_local _).legal (legal_same h rfl rfl rfl)
  · exact legal_same h rfl rfl rfl
  · exact legal_same h rfl rfl rfl

theorem hearForeign_legal (f : Frame) (s : State) (h : s.legal) : (s.hearForeign f).legal := by
  unfold State.hearForeign
  split
  · exact (busFault_local _ _).legal (legal_same h rfl rfl rfl)
  · exact h

theorem hearJoining_legal (f : Frame) (s : State) (h : s.legal) : (s.hearJoining f).legal := by
  unfold State.hearJoining
  split
  · split
    · split
      · exact legal_same h rfl rfl rfl
      · exact h
    · split
      · split
        · exact h
        · exact legal_same h rfl rfl rfl
      · exact legal_same h rfl rfl rfl
  · exact h

theorem hearJoin_legal (f : Frame) (s : State) (h : s.legal) : (s.hearJoin f).legal := by
  unfold State.hearJoin
  split
  · next d hd =>
    split
    · exact legal_map h rfl rfl (fun hn => by rw [hd] at hn; cases hn)
    · exact h
  · exact h

theorem passOn_legal (f : Frame) (s : State) (h : s.legal) : (s.passOn f).legal :=
  hearJoin_legal f _ (hearJoining_legal f _ (hearForeign_legal f _ ((hearDuplicate_local f s).legal h)))

theorem found_legal (s : State) (h : s.legal) : s.found.legal := by
  have hm := toMember_legal ((s.withChassis (Chassis.founded s.self s.items.foundingDropLimit s.items.foundingLoss)).withEngine
    { s.engine with foreign := 0 }) (legal_same h rfl rfl rfl)
  exact legal_map hm rfl rfl (fun hn => by show Option.map _ _ = none; rw [Option.map_eq_none_iff]; exact hn)

theorem retryJoin_legal (s : State) (h : s.legal) : s.retryJoin.legal := legal_same h rfl rfl rfl

/-! ### The end of a frame -/

theorem levelApplied_legal (b : Body) (s : State) (h : s.legal) : (s.levelApplied b).legal := by
  unfold State.levelApplied
  split
  · exact legal_same h (by simp) (by simp) (by simp)
  · exact h

theorem trackAdmission_legal (b : Body) (s : State) (h : s.legal) : (s.trackAdmission b).legal := by
  unfold State.trackAdmission
  split
  · split
    · split
      · refine (setCause_local _ _).legal ?_
        exact legal_same (s := s) h (State.withCtl_items _ _) rfl rfl
      · exact h
    · exact h
  all_goals exact legal_same h rfl rfl rfl

theorem clearForeign_legal (b : Body) (s : State) (h : s.legal) : (s.clearForeign b).legal := by
  unfold State.clearForeign
  split
  · exact legal_same h rfl rfl rfl
  all_goals exact h

theorem stopSequencer_legal (b : Body) (s : State) (h : s.legal) : (s.stopSequencer b).legal := by
  unfold State.stopSequencer
  split
  · exact h
  · next d hd => exact legal_map h rfl rfl (fun hn => by rw [hd] at hn; cases hn)
  · exact h

theorem applyFrame_legal (f : Frame) (s : State) (h : s.legal) : (s.applyFrame f).legal :=
  stopSequencer_legal _ _ (clearForeign_legal _ _ (trackAdmission_legal _ _ (levelApplied_legal _ _
    (legal_same h (by simp) (by simp) (by simp)))))

theorem settleHead_legal (w : Word) (s : State) (h : s.legal) : (s.settleHead w).legal := by
  unfold State.settleHead
  split <;> exact legal_same h rfl rfl rfl

theorem recordClear_legal (n : Notice) (c : Chassis) (s : State) (h : s.legal) : (s.recordClear n c).legal := by
  unfold State.recordClear
  split
  · exact legal_same h rfl rfl rfl
  all_goals exact h

theorem ownLeave_legal (n : Notice) (s : State) (h : s.legal) : (s.ownLeave n).legal := by
  unfold State.ownLeave
  split
  · exact legal_keep h rfl (fun hv => by simp [State.copyValid, Station.valid] at hv)
  · exact h

theorem reportSettled_legal (p : Path) (f : Frame) (c : Chassis) (s : State) (h : s.legal) :
    (s.reportSettled p f c).legal := by
  unfold State.reportSettled
  split
  · exact legal_map h rfl rfl (fun hn => by show Option.map _ _ = none; rw [hn]; rfl)
  · split
    · exact ownLeave_legal _ _ (recordClear_legal _ _ _ (settleHead_legal _ _ h))
    all_goals exact h
  · exact h

theorem reportIfOwn_legal (f : Frame) (c : Chassis) (s : State) (h : s.legal) : (s.reportIfOwn f c).legal := by
  unfold State.reportIfOwn
  split
  · exact reportSettled_legal _ _ _ _ h
  · exact h

theorem removedBy_legal (r : RosterBody) (s : State) (h : s.legal) : (s.removedBy r).legal :=
  legal_same (toDetached_legal _ _ s h) rfl rfl rfl

theorem adriftRemovedBy_legal (r : RosterBody) (s : State) (h : s.legal) : (s.adriftRemovedBy r).legal :=
  legal_same (toDetached_legal _ _ s h) rfl rfl rfl

theorem settleAtMember_legal (f : Frame) (s : State) (h : s.legal) : (s.settleAtMember f).legal := by
  unfold State.settleAtMember
  split
  · split
    · exact reportIfOwn_legal _ _ _ (applyFrame_legal f s h)
    · exact removedBy_legal _ _ h
  all_goals exact reportIfOwn_legal _ _ _ (applyFrame_legal f s h)

theorem completeTransfer_legal (s : State) (h : s.legal) : s.completeTransfer.legal :=
  toMember_legal _ (legal_same h (by simp) (by simp) (by simp))

theorem joinerSnap_legal (i : BitVec 6) (w : BitVec 90) (s : State) (h : s.legal) : (s.joinerSnap i w).legal := by
  unfold State.joinerSnap
  split
  · exact toAdrift_legal _ _ h
  · split
    · split
      · exact toAdrift_legal _ _ h
      · next c hc =>
        dsimp only
        split
        · exact completeTransfer_legal _ (legal_same h rfl rfl rfl)
        · exact legal_same h rfl rfl rfl
    · exact toAdrift_legal _ _ h

theorem settleAtTransfer_legal (f : Frame) (s : State) (h : s.legal) : (s.settleAtTransfer f).legal := by
  unfold State.settleAtTransfer
  split
  · exact joinerSnap_legal _ _ _ h
  all_goals exact toAdrift_legal _ _ h

theorem settleFrame_legal (f : Frame) (s : State) (h : s.legal) : (s.settleFrame f).legal := by
  unfold State.settleFrame
  split
  · exact settleAtMember_legal f s h
  · exact settleAtMember_legal f s h
  · exact settleAtTransfer_legal f s h
  · next hj =>
    split
    · exact legal_keep h rfl (fun _ => h.1 (by simp [State.copyValid, hj, Station.valid]))
    all_goals exact h
  · split
    · split
      · exact h
      · exact adriftRemovedBy_legal _ _ h
    all_goals exact h
  · exact h

theorem reportBroken_legal (s : State) (h : s.legal) : s.reportBroken.legal := by
  unfold State.reportBroken
  repeat' split
  · exact legal_same h rfl rfl rfl
  · exact legal_map h rfl rfl (fun hn => by show Option.map _ _ = none; rw [hn]; rfl)
  all_goals exact h

theorem reportUnsettled_legal (t : Tail) (s : State) (h : s.legal) : (s.reportUnsettled t).legal := by
  unfold State.reportUnsettled
  split
  · split
    · exact legal_same h rfl rfl rfl
    · exact legal_map h rfl rfl (fun hn => by show Option.map _ _ = none; rw [hn]; rfl)
    · unfold State.joinComplete
      split
      · exact legal_same h rfl rfl rfl
      · exact h
  · exact h

theorem verdict_legal (t : Tail) (s : State) (h : s.legal) : (s.verdict t).legal := by
  unfold State.verdict
  split
  · split
    · exact settleFrame_legal _ s h
    · exact reportUnsettled_legal t s h
  · exact reportUnsettled_legal t s h

theorem countMisses_legal (b : Bool) (e : StationSet) (s : State) (h : s.legal) : (s.countMisses b e).legal := by
  rw [State.countMisses_eq]; exact legal_same h rfl rfl rfl

theorem afterEcho_legal (s : State) (h : s.legal) : s.afterEcho.legal := by
  unfold State.afterEcho
  split
  · split
    · exact toDetached_legal _ _ s h
    · exact computeRoster_legal s h
  · exact h

theorem countAdrift_legal (b : Bool) (s : State) (h : s.legal) : (s.countAdrift b).legal := by
  unfold State.countAdrift
  split
  · exact legal_same h rfl rfl rfl
  · exact h

theorem complete_legal (t : Tail) (s : State) (h : s.legal) : (s.complete t).legal := by
  unfold State.complete
  split
  · exact toAdrift_legal _ s h
  · exact countAdrift_legal _ _ (afterEcho_legal _ (countMisses_legal _ _ _ (verdict_legal t s h)))

/-! ### The port -/

theorem shifts_legal (n : Nat) (s : State) (h : s.legal) : (s.shifts n).legal := legal_same h rfl rfl rfl

theorem cutPort_legal (c : Option Nat) (s : State) (h : s.legal) : (s.cutPort c).legal :=
  legal_same h (by simp) (by simp) (by simp)

/-- A transaction keeps `legal` when the effect of its command does. -/
theorem transact_legal (code : Byte) (n : Nat) (act : State → Reply) (s : State) (h : s.legal)
    (ha : ∀ t : State, t.legal → (act t).state.legal) : (s.transact code n act).legal := by
  have hs := shifts_legal n _ (settleDue_legal s h)
  unfold State.transact
  dsimp only
  split
  · exact legal_same (ha _ hs) rfl rfl rfl
  · exact hs

theorem withByte_legal {α : Type} (rest : List Byte) (range : Byte → Option α) (act : α → State → Reply)
    (ha : ∀ b v, range b = some v → ∀ t : State, t.legal → (act v t).state.legal) (s : State) (h : s.legal) :
    (withByte rest range act s).state.legal := by
  unfold withByte
  split
  · exact h
  · split
    · exact ha _ _ ‹_› _ h
    · exact h

/-- A configuration write that keeps `legal` for every value in range. -/
theorem locked_legal (write : State → State) (hw : ∀ t : State, t.legal → (write t).legal) (s : State) (h : s.legal) :
    (locked write s).state.legal := by
  unfold locked
  split
  · exact hw s h
  · exact h

theorem setStation_legal {α : Type} (rest : List Byte) (range : Byte → Option α) (write : α → State → State)
    (hw : ∀ b v, range b = some v → ∀ t : State, t.legal → (write v t).legal) (s : State) (h : s.legal) :
    (setStation rest range write s).state.legal :=
  withByte_legal rest range _ (fun b v hv t ht => locked_legal _ (hw b v hv) t ht) s h

theorem setSource_legal {α : Type} (source : Byte) (rest : List Byte) (range : Byte → Option α)
    (write : Fin 32 → α → State → State) (hw : ∀ n v, ∀ t : State, t.legal → (write n v t).legal) (s : State)
    (h : s.legal) : (setSource source rest range write s).state.legal := by
  unfold setSource
  split
  · exact withByte_legal rest range _ (fun b v _ t ht => locked_legal _ (hw _ v) t ht) s h
  · exact h

theorem setLineItem_legal {α : Type} (source : Byte) (rest : List Byte) (range : Byte → Option α)
    (write : Fin 24 → α → State → State) (hw : ∀ n v, ∀ t : State, t.legal → (write n v t).legal) (s : State)
    (h : s.legal) : (setLineItem source rest range write s).state.legal := by
  unfold setLineItem
  split
  · exact withByte_legal rest range _ (fun b v _ t ht => locked_legal _ (hw _ v) t ht) s h
  · exact h

theorem offerNotice_legal (a : Answer) (s : State) (ha : s.queue.ok → a.queue.ok) (h : s.legal) :
    (offerNotice a s).state.legal := by
  unfold offerNotice
  split
  · exact (answered_local a s ha).legal h
  · exact h

end Sys2Proof.Machine
end

