-- ==== Sys2Proof/Tests/Slice0.lean ====
section
/-! SUPPORT. Tests: ill-formed commands, transactions from their bytes, one small step for each command, values from the
spec's examples, and for each statement a state and operands that meet its hypotheses. -/

namespace Sys2Proof.Tests

open Sys2Proof.Machine

set_option Elab.async false

/-! ### Small states -/

/-- A station at address 3 after power-on, running, with the bus idle. -/
def base : State :=
  { State.reset with
    power := ⟨true, false⟩
    straps := ⟨3, 1, false⟩
    engine := { Engine.reset with bus := .idle, recessive := 11 } }

/-- The copy of a chassis of stations 1, 3 and 7, settle number 500, drop limit 3, loss severity MAJOR. -/
def copy : Chassis :=
  { Chassis.empty with
    generation := 9
    records := recordsOf (fun a => if a = 1 ∨ a = 3 ∨ a = 7 then some ⟨.full, 0⟩ else none)
    dropLimit := 3
    loss := some .major
    settle := 500 }

/-- A station with a copy, in a state. -/
def inState (st : Station) (c : Chassis) : State :=
  { base with
    chassis := c
    ctl := { Ctl.reset with station := st } }

/-- A MEMBER of that chassis. -/
def member : State := inState .member copy

/-- The station with a change of its controller. -/
def ctlOf (s : State) (f : Ctl → Ctl) : State := s.withCtl (f s.ctl)

/-- A body is about to be read. -/
def readingBody (s : State) : State := s.withEngine { s.engine with bus := .receiving, phase := .body }

/-- A frame of another station has been read good, and its ack window follows. -/
def hearing (s : State) (f : Frame) : State :=
  s.withEngine { s.engine with bus := .receiving, phase := .tail, rx := some f.bits }

/-- The same for a frame this station sends. -/
def sendingFrame (s : State) (p : Path) (f : Frame) : State :=
  s.withEngine { s.engine with bus := .transmitting, phase := .tail, rx := some f.bits, sent := some ⟨p, f.bits⟩ }

/-- A frame whose body the station has read bad. -/
def hearingBad (s : State) : State :=
  s.withEngine { s.engine with bus := .receiving, phase := .tail, rx := some 0 }

/-- A good echo of an ack map. -/
def echoOf (ack : StationSet) : Tail := ⟨ack, ack, echoCheck ack, false⟩

/-- Stations 1, 3 and 7. -/
def all : StationSet := 0x008A

/-- A FAULT report. -/
def report (source : BitVec 6) (sev : Severity) : Report := ⟨source, sev, 1, 0x1200, 1⟩

/-- A FAULT of station 7. -/
def fault7 : Frame := ⟨2, 7, .notice (.fault (report 5 .major))⟩

/-- An item and a head in flight. -/
def itemOf (n : Notice) : Item := ⟨n, false, 0⟩

/-- The station with a head in flight. -/
def withHead (s : State) (h : Head) : State := s.withQueue { s.queue with inFlight := some h }

/-- The station with roster duties. -/
def withDuties (s : State) (d : Duties) : State := ctlOf s (fun c => { c with duties := some d })

/-- A ROSTER that keeps the three stations. -/
def roster : RosterBody := ⟨10, all, 0, 0, none, 3, some .major, 0, false⟩

/-- What a command gives, looked at through a function of the next state. -/
def after {α : Type} (c : Instr) (s : State) (f : State → α) : Option α :=
  match exec c s with
  | .next t => some (f t)
  | _ => none

/-! ### Hypotheses that are decided -/

/-- `nothingDue`, computed. -/
def quiet (s : State) : Bool :=
  (s.queue.inFlight.all (fun h => !h.agingDue && decide (h.transmissions < 16))) && decide (s.engine.broken < 4)
    && (s.ctl.duties.all (fun d => decide (d.retries < 16)))
    && (decide (s.ctl.station ≠ .adrift) || decide (s.ctl.adriftFrames < 16))

theorem nothingDue_of {s : State} (h : quiet s = true) : s.nothingDue := by
  unfold quiet at h
  simp only [Bool.and_eq_true, decide_eq_true_eq, Bool.or_eq_true] at h
  obtain ⟨⟨⟨h1, h2⟩, h3⟩, h4⟩ := h
  refine ⟨fun x hx => ?_, h2, fun d hd => ?_, fun ha => ?_⟩
  · rw [hx] at h1
    simpa using h1
  · rw [hd] at h3
    simpa using h3
  · rcases h4 with h4 | h4
    · exact absurd ha h4
    · exact h4

theorem ready_of {s : State} (h : (s.operating && quiet s) = true) : s.ready := by
  rw [Bool.and_eq_true] at h
  exact ⟨h.1, nothingDue_of h.2⟩

theorem listening_of {s : State} (h : (s.operating && quiet s && s.port.straddle.isNone) = true) : s.listening := by
  simp only [Bool.and_eq_true, Option.isNone_iff_eq_none] at h
  exact ⟨ready_of (by rw [h.1.1, h.1.2]; rfl), h.2⟩

theorem ending_of {s : State} (h : (s.operating && quiet s && decide (s.engine.phase = .tail)) = true) :
    Sys2Proof.Spec.ending s := by
  rw [Bool.and_eq_true, decide_eq_true_eq] at h
  exact ⟨ready_of h.1, Or.inr h.2⟩

theorem agreed_of {s : State} {t : Tail}
    (h : (s.operating && quiet s && decide (s.engine.phase = .tail)) = true)
    (h' : (!s.engine.breaking && !t.endDominant && decide (t.check = echoCheck t.echo) && decide (t.echo = t.ack)) = true) :
    Sys2Proof.Spec.agreed s t := by
  simp only [Bool.and_eq_true, Bool.not_eq_true', decide_eq_true_eq] at h'
  exact ⟨ending_of h, h'.1.1.1, h'.1.1.2, h'.1.2, h'.2⟩

theorem heard_of {s : State} {f : Frame} (h : s.engine.rx = some f.bits) (h' : readFrame f.bits = some f) :
    Sys2Proof.Spec.heard s f := ⟨f.bits, h, h'⟩

theorem unheard_of {s : State} (h : s.goodBody = none) : ∀ f, ¬Sys2Proof.Spec.heard s f := by
  rintro f ⟨bits, hb, hf⟩
  unfold State.goodBody at h
  rw [hb] at h
  simp [hf] at h

theorem notBroken_of {s : State} {t : Tail} (h : s.engine.frameBroken t = false) : ¬Sys2Proof.Spec.broken s t := by
  intro hb
  have : s.engine.frameBroken t = true := by
    unfold Engine.frameBroken Engine.echoDisturbed tailAgrees tailGood tailSilent
    unfold Sys2Proof.Spec.broken at hb
    rcases hb with h | h | ⟨h1, h2⟩ | ⟨h1, h2⟩
    · simp [h]
    · simp [h]
    · simp [h1, h2]
    · have h3 : s.engine.sent.isSome = true := Option.isSome_iff_ne_none.mpr h1
      have h4 : (decide (t.check = echoCheck t.echo) && decide (t.echo = t.ack)) = false := by
        rw [← Bool.not_eq_true]
        simpa using h2
      simp [h3, h4]
  rw [h] at this
  cases this

/-! ### Well-formed commands, transactions and words -/

theorem test_wf_position_out_of_range : (Instr.resetAsserted ⟨175, none⟩).wf = false := by decide
theorem test_wf_position_in_range : (Instr.resetAsserted ⟨174, some 9⟩).wf = true := by decide
theorem test_wf_bytes_of_another_row : (Instr.commandCodeNamesNoCommand [0x01]).wf = false := by decide
theorem test_wf_bytes_of_another_item : (Instr.commandCodeNamesNoCommand [0x03, 0x06]).wf = false := by decide
theorem test_wf_bytes_of_another_source_item : (Instr.commandCodeNamesNoCommand [0x04, 0x1F, 0x03]).wf = false := by decide
theorem test_wf_unknown_code : (Instr.commandCodeNamesNoCommand [0x12, 0x00]).wf = true := by decide
theorem test_wf_unknown_item : (Instr.commandCodeNamesNoCommand [0x03, 0x07]).wf = true := by decide

theorem test_word_spells_nothing : decodeTableWord 8 0x01 = none ∧ base.withFetchWord 8 0x01 = base := by
  exact ⟨rfl, rfl⟩
theorem test_decode_status : decodeTransaction [0x01, 0xFF] = .status [0xFF] := by decide
theorem test_decode_raise : decodeTransaction [0x07, 0x18, 0, 0, 0x12, 0] = .raise [0x18, 0, 0, 0x12, 0] := by decide
theorem test_decode_alert_mask : decodeTransaction [0x03, 0x04, 0x55] = .setStationAlertMask [0x55] := by decide
theorem test_decode_source_mode : decodeTransaction [0x04, 0x05, 0x01, 0x01] = .setSourceMode 0x05 [0x01] := by decide
theorem test_decode_idle_byte : decodeTransaction [0xFF] = .commandCodeNamesNoCommand [0xFF] := by decide
theorem test_decode_code_zero : decodeTransaction [0x00] = .commandCodeNamesNoCommand [0x00] := by decide

/-! ### The spec's examples -/

/-- R177: the echo check of an echo that shows no slot acknowledged. -/
theorem test_check_of_silent_echo : echoCheck 0 = 0x24 := by decide +kernel

/-- R177: a body read back has a good check; one bit changed has not. -/
theorem test_frame_check : readFrame fault7.bits = some fault7 ∧ readFrame (fault7.bits ^^^ 1) = none := by decide +kernel

/-- Table 11-3: a JOIN of station 2 at urgency 5, bit by bit. -/
theorem test_join_bits : (Frame.mk 5 2 .join).content = 0b101#3 ++ 0b0010#4 ++ 0b100#3 ++ 0#96 := by decide +kernel

/-- Table 11-3: a FAULT of source 5, MAJOR, in its payload. -/
theorem test_fault_bits :
    (report 5 .major).payload = 0b000101#6 ++ 0b10#2 ++ 1#8 ++ 0x1200#32 ++ 1#16 ++ 0#32 := by decide +kernel

/-- An entry of the examples. -/
def entry (o : Addr) (n : BitVec 6) (sev : Severity) (occ : Byte) (d : Word) : Entry := ⟨o, n, sev, 7, occ, d, false⟩

/-- The entry that a FAULT leaves in a table that holds one entry of its source. -/
def coalesced (sev : Severity) (occ : Byte) (d : Word) (r : Report) : List Entry :=
  (({ copy with table := [entry 4 24 sev occ d] } : Chassis).apply 4 (.notice (.fault r))).table

/-- Table 1-2. -/
theorem test_coalescing_examples :
    coalesced .minor 4 0x1200 ⟨24, .major, 1, 0x1208, 0⟩ = [entry 4 24 .major 5 0x1208]
      ∧ coalesced .critical 250 0x40000 ⟨24, .minor, 9, 0x40001, 0⟩ = [entry 4 24 .critical 255 0x40001]
      ∧ coalesced .major 255 0 ⟨24, .major, 3, 7, 0⟩ = [entry 4 24 .major 255 7] := by decide +kernel

/-- Table 1-3, rows 1, 4 and 6, with tables of a few entries in place of 32. -/
theorem test_eviction_examples :
    evictFor .major [entry 1 1 .major 1 0, entry 2 2 .minor 1 0, entry 3 3 .minor 1 0]
        = some [entry 1 1 .major 1 0, entry 3 3 .minor 1 0]
      ∧ evictFor .critical [entry 1 1 .critical 1 0, entry 2 2 .major 1 0] = some [entry 1 1 .critical 1 0]
      ∧ evictFor .minor [entry 1 1 .minor 1 0] = none := by decide

/-- The chassis of section 2.6 after its first two settled frames. -/
def halted : Chassis :=
  ((({ copy with settle := 500 } : Chassis).apply 4 (.notice (.fault ⟨24, .critical, 1, 0, 1⟩))).apply 1
    (.notice (.fault ⟨3, .major, 1, 0, 1⟩)))

/-- Section 2.6: settle number 502, level HALT, since-first count 1; then the CLEARs of scope FIRST and HALT. -/
theorem test_halt_example :
    halted.settle = 502 ∧ halted.level = .halt ∧ halted.sinceFirst = 1
      ∧ halted.clearOutcome 1 .first 0 501 = .done ∧ halted.clearOutcome 1 .halt 0 0 = .refused
      ∧ ((halted.apply 4 (.notice (.resolve 24))).apply 1 (.notice (.clear .halt 0 0))).level = .contain := by
  decide +kernel

/-- Table 4-9 of section 4.8: the queue of station 6 when full. -/
def fullQueue : Queue :=
  { inFlight := some (Head.start ⟨.fault (report 2 .major), true, 1⟩)
    waiting := [⟨.clear .first 0 880, false, 6⟩, ⟨.fault (report 14 .major), true, 2⟩, ⟨.fault (report 9 .major), true, 4⟩,
      ⟨.fault (report 20 .minor), true, 5⟩, ⟨.fault (report 5 .minor), true, 7⟩, ⟨.fault (report 11 .minor), true, 8⟩,
      ⟨.resolve 3, false, 9⟩]
    loss := 4
    nextAge := 10 }

/-- Section 4.8: a CRITICAL FAULT displaces the RESOLVE and stands behind the CLEAR; a MINOR one is refused. -/
theorem test_full_queue_example :
    (fullQueue.offerFault (report 17 .critical) true).displaced = some ⟨.resolve 3, false, 9⟩
      ∧ (fullQueue.offerFault (report 17 .critical) true).queue.waiting.map Item.age = [6, 10, 2, 4, 5, 7, 8]
      ∧ (fullQueue.offerFault (report 22 .minor) true).taken = false := by decide +kernel

/-- Section 4.8: a CRITICAL FAULT for source 20 merges, keeps its age and goes ahead of the CLEAR. -/
theorem test_merge_example :
    (fullQueue.offerFault (report 20 .critical) true).queue.waiting.map Item.age = [5, 6, 2, 4, 7, 8, 9] := by
  decide +kernel

/-- R73, R75: a RESOLVE in flight beside a waiting FAULT of its source: kept at the retry limit, cancelled on leaving. -/
theorem test_resolve_head_goes_back :
    let q : Queue := { fullQueue with inFlight := some (Head.start ⟨.resolve 5, false, 3⟩) }
    q.retryHead.waiting.map Item.age = [6, 2, 4, 3, 5, 7, 8, 9] ∧ q.returnHead.waiting.map Item.age = [6, 2, 4, 5, 7, 8, 9] := by
  decide +kernel

/-- Section 8.9: the first fault is record 1 and first, the second record 2; a second fault of source 5 coalesces. -/
theorem test_log_example :
    (Log.powerOn.take 5 .major 0).firstWritten = true
      ∧ ((Log.powerOn.take 5 .major 0).log.take 12 .minor 0).log.next.map Record.number = [2]
      ∧ ((Log.powerOn.take 5 .major 0).log.take 5 .major 1).log.records.map Record.occurrences = [2] := by decide +kernel

/-! ### One step of each command -/

theorem test_power_on : after .powerOn base (fun t => (t.power, t.items.qualifyTime)) = some (⟨false, false⟩, 10) := by
  decide +kernel
theorem test_end_of_power_on :
    after (.endOfPowerOn 3 1 true ⟨0, none⟩) State.reset (fun t => (t.straps.addr, t.ctl.joinPending, t.ctl.joinTimer))
      = some (3, true, some 20) := by decide +kernel
theorem test_end_of_power_on_holds_active_lines :
    after (.endOfPowerOn 3 1 true ⟨1, none⟩) State.reset (fun t => ((t.monitor.line 0).tracker, (t.monitor.line 1).tracker))
      = some (.inactive, .held) := by decide +kernel
theorem test_reset_asserted :
    after (.resetAsserted ⟨0, none⟩) (member.withOutputs ⟨.contain, .halt, .contain, true, true, false⟩)
      (fun t => (t.ctl.station, t.outputs.driven, t.outputs.policy, t.chassis.table))
      = some (.detached, .contain, .hold, []) := by decide +kernel
theorem test_reset_asserted_in_own_echo :
    after (.resetAsserted ⟨140, none⟩) (sendingFrame member .queue fault7) (fun t => t.engine.breaking) = some true
      ∧ after (.resetAsserted ⟨164, none⟩) (sendingFrame member .queue fault7) (fun t => t.engine.breaking) = some false := by
  decide +kernel
theorem test_reset_released :
    after (.resetReleased 2 true ⟨0xFFFFFF, none⟩) (base.withPower ⟨true, true⟩)
      (fun t => (t.straps, t.power.resetLow, t.ctl.joinPending)) = some (⟨3, 2, true⟩, false, true) := by decide +kernel
/-- A station that runs, with a transaction in progress that began before the last reset ended and clocked one byte then. -/
def straddled : State := base.withPort { base.port with straddle := some [0x5A] }

theorem test_reset_cuts_a_transaction :
    after (.resetAsserted ⟨0, some 12⟩) base (fun t => t.port.straddle.map List.length) = some (some 2)
      ∧ after (.resetReleased 2 false ⟨0, some 8⟩) (base.withPower ⟨true, true⟩) (fun t => t.port.straddle)
        = some (some [0xFF])
      ∧ after (.resetReleased 2 false ⟨0, none⟩) (straddled.withPower ⟨true, true⟩) (fun t => t.port.straddle)
        = some none := by decide +kernel
theorem test_straddling_transaction_takes_no_command :
    after (.join [0xFF]) straddled (fun t => (t.ctl.station, t.port.response, t.port.straddle, t.freeCount))
      = some (.detached, none, none, 1) := by decide +kernel
theorem test_bus_idle :
    after .busIdle (base.withEngine Engine.reset) (fun t => t.engine.bus) = some .idle := by decide +kernel
theorem test_frame_start_by_other :
    after (.frameStart true) base (fun t => (t.engine.bus, t.engine.phase)) = some (.receiving, .body) := by decide +kernel
theorem test_frame_start_own :
    after (.frameStart false) (member.withQueue { member.queue with waiting := [itemOf .leave] })
      (fun t => (t.engine.bus, t.queue.waiting, t.queue.inFlight.map Head.urgency))
      = some (.arbitrating, [], some 4) := by decide +kernel
theorem test_arbitration_loss :
    after (.arbitrationLoss true)
      ((withHead member (Head.start (itemOf .leave))).withEngine
        { member.engine with bus := .arbitrating, phase := .body, sent := some ⟨.queue, 0⟩ })
      (fun t => (t.engine.bus, t.queue.inFlight.map Head.losses)) = some (.receiving, some 1) := by decide +kernel
theorem test_head_aging :
    after .headAging (withHead member { Head.start (itemOf .leave) with losses := 7, agingDue := true })
      (fun t => t.queue.inFlight.map (fun h => (h.losses, h.urgency))) = some (some (0, 3)) := by decide +kernel
theorem test_transmission_fault :
    after .transmissionFault
      (member.withEngine { member.engine with bus := .transmitting, phase := .body, sent := some ⟨.queue, 0⟩ })
      (fun t => t.engine.breaking) = some true := by decide +kernel
theorem test_body_received :
    after (.bodyReceived fault7.bits) (readingBody member) (fun t => (t.engine.phase, t.drivesAck)) = some (.tail, true) := by
  decide +kernel
theorem test_body_received_foreign :
    after (.bodyReceived (Frame.mk 2 9 (.notice .leave)).bits) (readingBody member)
      (fun t => (t.drivesAck, t.alerts.pending, (t.monitor.source 30).counter)) = some (false, 0x81, 1) := by decide +kernel
theorem test_frame_end_settled :
    after (.frameEnd (echoOf all)) (hearing member fault7)
      (fun t => (t.chassis.settle, t.chassis.table.length, t.outputs.driven, t.engine.phase))
      = some (501, 1, .contain, .gap) := by decide +kernel
theorem test_frame_end_not_settled :
    after (.frameEnd (echoOf 0x0082)) (hearing member fault7)
      (fun t => (t.chassis.settle, (t.chassis.record 3).map Member.miss, (t.chassis.record 7).map Member.miss))
      = some (500, some 1, some 0) := by decide +kernel
theorem test_repeated_breaks :
    after .repeatedBreaks (member.withEngine { member.engine with broken := 4 })
      (fun t => (t.engine.broken, t.alerts.pending, (t.monitor.source 30).counter)) = some (0, 0x81, 1) := by decide +kernel
theorem test_stuck_line :
    after .stuckLine base (fun t => (t.alerts.pending, t.log.first.map Record.detail)) = some (0x81, some 2) := by
  decide +kernel
theorem test_retry_exhaustion :
    after .retryExhaustion (withHead member { Head.start (itemOf .leave) with transmissions := 16 })
      (fun t => (t.ctl.station, t.queue.waiting.map Item.notice, t.log.first.map Record.detail))
      = some (.adrift, [.fault ⟨31, .minor, 1, 0x15, 1⟩, .leave], some 0x15) := by decide +kernel
theorem test_roster_retry_exhaustion :
    after .rosterRetryExhaustion (withDuties member ⟨[], none, 16⟩) (fun t => (t.ctl.station, t.ctl.duties))
      = some (.adrift, none) := by decide +kernel
theorem test_adrift_frame_count_expiry :
    after .adriftFrameCountExpiry (ctlOf (inState .adrift Chassis.empty) (fun c => { c with adriftFrames := 16 }))
      (fun t => (t.ctl.station, t.ctl.cause, t.ctl.joinPending)) = some (.detached, .dropped, true) := by decide +kernel
theorem test_automatic_join :
    after .automaticJoin (ctlOf base (fun c => { c with joinPending := true, joinTimer := some 20 }))
      (fun t => (t.ctl.station, t.ctl.joinOwed)) = some (.joining, true) := by decide +kernel
theorem test_join_wait_expiry_founds :
    after .joinWaitExpiry (ctlOf (inState .joining Chassis.empty) (fun c => { c with joinTimer := some 20, heardList := [5] }))
      (fun t => (t.ctl.station, t.chassis.map, t.chassis.generation, t.ctl.duties.map Duties.list))
      = some (.member, 0x0008, 1, some [5]) := by decide +kernel
theorem test_join_wait_expiry_with_traffic :
    after .joinWaitExpiry
      (ctlOf (inState .joining Chassis.empty) (fun c => { c with joinTimer := some 20, heardTraffic := true }))
      (fun t => (t.ctl.station, t.ctl.attempts, t.ctl.joinOwed)) = some (.joining, 1, true) := by decide +kernel
theorem test_transfer_timer_expiry :
    after .transferTimerExpiry
      (ctlOf (inState .transfer copy) (fun c => { c with joinTimer := some 20, transfer := some ⟨0, 1, false⟩ }))
      (fun t => (t.ctl.station, t.log.first.map Record.detail, t.chassis.map)) = some (.adrift, some 0x16, 0) := by
  decide +kernel
theorem test_adrift_wait_expiry :
    after .adriftWaitExpiry
      (ctlOf (inState .adrift Chassis.empty) (fun c => { c with joinTimer := some 20, adriftLeaving := true }))
      (fun t => (t.ctl.station, t.ctl.cause, t.ctl.joinPending)) = some (.detached, .departed, false) := by decide +kernel

/-- All lines high: inactive under active-low. -/
def lined : State := base.withMonitor { base.monitor with fin := 0xFFFFFF }

/-- FIN5 as in section 7.8: LEVEL mode, class MAJOR, qualifying. -/
def fin5 : State :=
  lined.withMonitor (({ lined.monitor with fin := 0xFFFFDF } : Monitor).setLine 5
    ⟨.level, .activeLow, .qualifying, some 10⟩ |>.setSource 5 ⟨.major, 16, false, 0, false⟩)

theorem test_line_active :
    after (.lineActive 5) lined (fun t => ((t.monitor.line 5).tracker, (t.monitor.line 5).timer, t.monitor.fin))
      = some (.qualifying, some 10, 0xFFFFDF) := by decide +kernel
theorem test_line_inactive :
    after (.lineInactive 5) fin5 (fun t => ((t.monitor.line 5).tracker, (t.monitor.line 5).timer, t.monitor.fin))
      = some (.inactive, none, 0xFFFFFF) := by decide +kernel
theorem test_qualification_expiry :
    after (.qualificationExpiry 5) fin5
      (fun t => ((t.monitor.line 5).tracker, (t.monitor.source 5).latched, t.log.first.map (fun r => (r.number, r.detail))))
      = some (.held, true, some (1, 0x00FFFFDF)) := by decide +kernel

/-- The stored response after a transaction. -/
def reply (c : Instr) (s : State) : Option (Byte × Byte × Status × List Byte) :=
  after c s (fun t => t.port.response.map (fun r => (r.code, r.count, r.status, r.data))) |>.join

theorem test_status :
    (reply (.status []) member).map (fun r => (r.2.2.1, r.2.2.2.take 9, r.2.2.2.length))
      = some (.done, [3, 1, 2, 3, 0, 0, 0, 0, 0], 48) := by decide +kernel
theorem test_read_alerts :
    reply (.readAlerts []) (member.setCause .rosterChange) = some (0x02, 1, .done, [0x08, 0])
      ∧ after (.readAlerts []) (member.setCause .rosterChange) (fun t => t.alerts) = some ⟨0, 0, false⟩ := by
  decide +kernel
theorem test_set_qualify_time :
    after (.setStationQualifyTime [0]) base (fun t => t.items.qualifyTime) = some 0 := by decide +kernel
theorem test_set_join_wait :
    after (.setStationJoinWait [255]) base (fun t => t.items.joinWait) = some 255 := by decide +kernel
theorem test_set_auto_rejoin :
    after (.setStationAutoRejoin [0]) base (fun t => t.items.autoRejoin) = some false := by decide +kernel
theorem test_set_detached_level :
    after (.setStationDetachedLevel [1]) base (fun t => (t.outputs.driven, t.outputs.contain, t.alerts.pending))
      = some (.contain, true, 0x40) := by decide +kernel
theorem test_set_alert_mask :
    after (.setStationAlertMask [0x40]) (base.setCause .levelChange) (fun t => (t.alerts.mask, t.alerts.line))
      = some (0x40, false) := by decide +kernel
theorem test_set_founding_drop_limit :
    after (.setStationFoundingDropLimit [8]) base (fun t => t.items.foundingDropLimit) = some 8
      ∧ reply (.setStationFoundingDropLimit [9]) base = some (0x03, 1, .badArg, []) := by decide +kernel
theorem test_set_founding_loss :
    after (.setStationFoundingLossSeverity [0]) base (fun t => t.items.foundingLoss) = some none
      ∧ reply (.setStationFoundingLossSeverity [0]) member = some (0x03, 1, .locked, []) := by decide +kernel
theorem test_set_source_class :
    after (.setSourceClass 31 [4]) base (fun t => (t.monitor.source 31).cls) = some .critical := by decide +kernel
theorem test_set_source_mode :
    after (.setSourceMode 5 [1]) base (fun t => ((t.monitor.line 5).mode, (t.monitor.line 5).tracker))
      = some (.level, .qualifying) := by decide +kernel
theorem test_set_source_polarity :
    after (.setSourcePolarity 5 [1]) base (fun t => ((t.monitor.line 5).polarity, (t.monitor.line 5).tracker))
      = some (.activeHigh, .inactive) := by decide +kernel
theorem test_set_source_threshold :
    after (.setSourceThreshold 0 [255]) base (fun t => (t.monitor.source 0).threshold) = some 255 := by decide +kernel
theorem test_join : after (.join []) base (fun t => (t.ctl.station, t.ctl.joinOwed)) = some (.joining, true) := by
  decide +kernel
theorem test_leave :
    after (.leave []) member (fun t => t.queue.waiting.map Item.notice) = some [.leave]
      ∧ reply (.leave []) base = some (0x06, 1, .wrongState, []) := by decide +kernel
theorem test_raise :
    after (.raise [24, 0, 0, 0x12, 0x34]) base (fun t => t.log.first.map (fun r => (r.source, r.severity, r.detail)))
      = some (some (24, .major, 0x1234)) := by decide +kernel
theorem test_release_source :
    reply (.releaseSource [5]) fin5 = some (0x08, 1, .active, [])
      ∧ reply (.releaseSource [31]) fin5 = some (0x08, 1, .done, []) := by decide +kernel
theorem test_resolve :
    after (.resolve [32]) member (fun t => t.queue.waiting.map Item.notice) = some [.resolve 32] := by decide +kernel
theorem test_request_clear :
    after (.requestClear [0, 15, 0, 0, 0x03, 0x70]) member (fun t => t.queue.waiting.map Item.notice)
      = some [.clear .first 0 880] := by decide +kernel
theorem test_read_local :
    reply (.readLocal [0x10]) base = some (0x0B, 1, .done, List.replicate 17 0) := by decide +kernel
theorem test_clear_local_first :
    after (.clearLocalFirst []) (base.withLog { Log.powerOn with
      first := some ⟨1, 5, .major, 1, 0, .unsent⟩, next := [⟨2, 12, .minor, 1, 0, .unsent⟩] })
      (fun t => (t.log.first.map Record.number, t.log.next.length, t.alerts.pending)) = some (some 2, 0, 0x80) := by
  decide +kernel
theorem test_read_counter :
    reply (.readCounter [5]) fin5 = some (0x0D, 1, .done, [3, 0, 0, 0, 0x81]) := by decide +kernel
theorem test_clear_counter :
    after (.clearCounter [30]) (base.busFault 1) (fun t => (t.monitor.source 30).counter) = some 0 := by decide +kernel
theorem test_read_entry :
    reply (.readEntry [0]) member = some (0x0F, 1, .done, List.replicate 14 0 ++ [0, 0, 0, 0x01, 0xF4])
      ∧ reply (.readEntry [0]) base = some (0x0F, 1, .invalid, []) := by decide +kernel
theorem test_read_chassis_first :
    reply (.readChassisFirst []) member = some (0x10, 1, .done, List.replicate 14 0 ++ [0, 0, 0x01, 0xF4]) := by
  decide +kernel
theorem test_read_roster :
    reply (.readRoster []) member = some (0x11, 1, .done,
      [0, 9, 0, 0x8A, 0, 0x80, 0, 0x80, 0, 0, 0, 0x80, 0, 0, 0, 0, 0, 0, 0, 0, 3, 2, 1, 0xFF, 0, 0, 0xFF, 0xFF, 0, 0,
        0, 0, 0x01, 0xF4]) := by decide +kernel
theorem test_no_command :
    reply (.commandCodeNamesNoCommand [0x12, 0x00]) base = some (0x12, 1, .badArg, [])
      ∧ after (.commandCodeNamesNoCommand [0xFF, 0xFF, 0xFF, 0xFF]) base (fun t => (t.port.sdo, t.port.count))
        = some ([0, 0, 0, 0xFF], 0) := by decide +kernel


/-! ### States and operands that meet the hypotheses of the statements

One theorem for each statement that has hypotheses, one clause of it for each clause of the statement, at the ends of the
ranges. -/

theorem legal_of {s : State}
    (h : (!(!s.copyValid && s.ctl.duties.isSome) && decide (1 ≤ s.items.joinWait)
      && decide (2 ≤ s.items.foundingDropLimit) && decide (s.items.foundingDropLimit ≤ 8)) = true) : s.legal := by
  simp only [Bool.and_eq_true, decide_eq_true_eq, Bool.not_eq_true', Bool.and_eq_false_iff] at h
  obtain ⟨⟨⟨h1, h2⟩, h3⟩, h4⟩ := h
  refine ⟨fun hv => ?_, h2, h3, h4⟩
  rcases h1 with h1 | h1
  · rw [hv] at h1
    cases h1
  · exact Option.isNone_iff_eq_none.mp (by rw [← Option.not_isSome, h1]; rfl)

theorem reading_of {s : State} (h : (s.operating && quiet s && decide (s.engine.phase = .body)) = true) :
    Sys2Proof.Spec.reading s := by
  rw [Bool.and_eq_true, decide_eq_true_eq] at h
  exact ⟨ready_of h.1, h.2⟩

/-- Station 1 as the roster station of its chassis. -/
def keeper : State := withDuties { member with straps := ⟨1, 1, false⟩ } ⟨[5], none, 0⟩

/-- A station that has a record, an item that waits, an entry and a first record. -/
def busy : State :=
  { member with
    chassis := { copy with table := [entry 7 5 .major 1 0], level := .contain }
    outputs := ⟨.contain, .hold, .contain, true, true, false⟩
    log := ⟨some ⟨1, 31, .minor, 1, 0x15, .queued⟩, [], 0, 1⟩
    queue := ⟨some (Head.start ⟨.leave, false, 0⟩), [⟨.fault ⟨31, .minor, 1, 0x15, 1⟩, true, 1⟩], 0, 2⟩ }

theorem meets_StepRunsTheFrontCommand : (base.withPending [.busIdle]).pending = [.busIdle] ∧ base.pending = [] := ⟨rfl, rfl⟩

theorem meets_EveryCommandCompletesAfterTheDueEvents :
    Sys2Proof.Spec.waits .busIdle ∧ Sys2Proof.Spec.waits (.status [])
      ∧ (base.withEngine { base.engine with broken := 4 }).power.resetLow = false
      ∧ ¬(base.withEngine { base.engine with broken := 4 }).nothingDue := by
  refine ⟨by simp [Sys2Proof.Spec.waits], by simp [Sys2Proof.Spec.waits], rfl, fun h => absurd h.2.1 (by decide)⟩

theorem meets_StepKeepsTheInvariants :
    (busy.withPending [.leave []]).sound ∧ ∃ t, step (busy.withPending [.leave []]) = .next t := by
  refine ⟨⟨⟨?_, ?_⟩, ⟨?_, ?_⟩, ⟨?_, ⟨?_, ?_, ?_⟩, ?_⟩, ?_⟩, ⟨_, rfl⟩⟩
  · unfold Alerts.ok
    decide +kernel
  · unfold Outputs.ok
    decide +kernel
  · decide +kernel
  · decide +kernel
  · unfold tableOk
    decide +kernel
  · decide +kernel
  · exact List.pairwise_singleton _ _
  · exact List.pairwise_singleton _ _
  · unfold Log.ok
    decide +kernel
  · intro x hx
    cases hx

theorem meets_DutiesAndItemsStayLegal :
    (keeper.withPending [.busIdle]).legal ∧ ∃ t, step (keeper.withPending [.busIdle]) = .next t :=
  ⟨legal_of (by decide +kernel), ⟨_, rfl⟩⟩

theorem meets_FrameBodiesReadBack :
    Sys2Proof.Spec.wellFormed (.notice (.fault ⟨31, .minor, 1, 0, 0⟩))
      ∧ Sys2Proof.Spec.wellFormed (.notice (.fault ⟨0, .minor, 255, 0, 0⟩))
      ∧ Sys2Proof.Spec.wellFormed (.notice (.resolve 32)) ∧ Sys2Proof.Spec.wellFormed .join
      ∧ Sys2Proof.Spec.wellFormed (.roster ⟨1, 1, 0, 1, some 0, 2, none, 32, true⟩)
      ∧ Sys2Proof.Spec.wellFormed (.roster ⟨0, 0x8000, 1, 0, none, 8, some .critical, 0, false⟩)
      ∧ Sys2Proof.Spec.wellFormed (.snap 33 0)
      ∧ Sys2Proof.Spec.wellFormed (.snap 0 (Header.content ⟨1, 0, false, 0, 0⟩))
      ∧ Sys2Proof.Spec.wellFormed (.snap 0 (Header.content ⟨34, 0, true, 0xFFFF, 0xFFFF⟩)) := by
  simp only [Sys2Proof.Spec.wellFormed, forall_eq', Option.some.injEq, reduceCtorEq, false_implies, implies_true]
  decide +kernel

/-- R7, R12, R28, R94, R110, Table 11-1: payloads and kinds that are not well-formed read as none. -/
theorem test_bad_bodies :
    readBody 0 (Report.payload ⟨32, .minor, 1, 0, 0⟩) = none ∧ readBody 0 (Report.payload ⟨31, .minor, 0, 0, 0⟩) = none
      ∧ readBody 1 (33#6 ++ 0#90) = none ∧ readBody 2 (3#2 ++ 0#94) = none
      ∧ readBody 5 (RosterBody.payload ⟨1, 0, 0, 0, none, 2, none, 0, false⟩) = none
      ∧ readBody 5 (RosterBody.payload ⟨1, 1, 0, 0, none, 9, none, 0, false⟩) = none
      ∧ readBody 6 (34#6 ++ 0#90) = none ∧ readBody 6 0 = none ∧ readBody 7 0 = none := by decide +kernel

theorem meets_TransactionsReadBack :
    (Instr.raise [24]).wf = true ∧ encodeTransaction (.raise [24]) = some [0x07, 24]
      ∧ (Instr.commandCodeNamesNoCommand [0x12]).wf = true
      ∧ encodeTransaction (.commandCodeNamesNoCommand [0x12]) = some [0x12] := by decide

/-! #### The chassis copy -/

theorem meets_FaultCoalescesOrEntersTheTable :
    (∃ (c : Chassis) (pre post : List Entry) (x : Entry), c.table = pre ++ x :: post ∧ x.origin = 7 ∧ x.source = 5
        ∧ x.occurrences = 255 ∧ ∀ y ∈ pre ++ post, ¬(y.origin = 7 ∧ y.source = 5))
      ∧ ∃ c : Chassis, c.table.length = 31 ∧ ∀ y ∈ c.table, ¬(y.origin = 7 ∧ y.source = 5) :=
  ⟨⟨{ copy with table := [entry 1 5 .minor 1 0, entry 7 5 .minor 255 0, entry 7 6 .major 1 0] }, [entry 1 5 .minor 1 0],
      [entry 7 6 .major 1 0], entry 7 5 .minor 255 0, by decide +kernel⟩,
    ⟨{ copy with table := List.replicate 31 (entry 1 1 .major 1 0) }, by decide +kernel⟩⟩

theorem meets_FullTableEvictsOrDrops :
    (∃ (c : Chassis) (pre post : List Entry) (x : Entry), c.table.length = 32
        ∧ (∀ y ∈ c.table, ¬(y.origin = 7 ∧ y.source = 5)) ∧ c.table = pre ++ x :: post
        ∧ (∀ y ∈ pre, x.severity.rank < y.severity.rank) ∧ (∀ y ∈ post, x.severity.rank ≤ y.severity.rank)
        ∧ x.severity.rank < Severity.major.rank)
      ∧ ∃ c : Chassis, c.table.length = 32 ∧ (∀ y ∈ c.table, ¬(y.origin = 7 ∧ y.source = 5))
        ∧ (∀ y ∈ c.table, Severity.major.rank ≤ y.severity.rank) ∧ c.dropped = 0xFFFF :=
  ⟨⟨{ copy with table := List.replicate 30 (entry 1 1 .major 1 0) ++ [entry 2 2 .minor 1 0, entry 3 3 .minor 1 0] },
      List.replicate 30 (entry 1 1 .major 1 0), [entry 3 3 .minor 1 0], entry 2 2 .minor 1 0, by decide +kernel⟩,
    ⟨{ copy with table := List.replicate 32 (entry 1 1 .major 1 0), dropped := 0xFFFF }, by decide +kernel⟩⟩

theorem meets_ResolveAndLeaveAtTheCopy : copy.record 7 = some ⟨.full, 0⟩ ∧ copy.record 0 = none := by decide +kernel

theorem meets_ClearOfTheFirstRecord :
    halted.first.map First.settle = some 501
      ∧ (∀ f, ({ copy with first := none } : Chassis).first = some f → f.settle ≠ 501)
      ∧ ∀ f, halted.first = some f → f.settle ≠ 500 := by
  refine ⟨by decide +kernel, (fun f h => (Option.some_ne_none f h.symm).elim), fun f h => ?_⟩
  have : halted.first.map First.settle = some 501 := by decide +kernel
  rw [h] at this
  simp only [Option.map_some, Option.some.injEq] at this
  rw [this]
  decide

theorem meets_ClearOfTheHaltLatch :
    (∃ x ∈ halted.table, x.severity = .critical) ∧ (∀ x ∈ copy.table, x.severity ≠ .critical) ∧ copy.halt = false
      ∧ copy.level = deriveLevel copy.halt copy.table := by decide +kernel

theorem meets_ClearOfAnOrigin : copy.record 7 ≠ none ∧ copy.record 0 = none ∧ (0 : Addr) ≠ 3 ∧ halted.halt = true := by
  decide +kernel

theorem meets_AppliedFrameKeepsLatchAndCount :
    (∀ x ∈ halted.table, x.severity = .critical → halted.halt = true) ∧ (fault7.body).numbered = true
      ∧ (copy.first = none → copy.sinceFirst = 0) ∧ (copy.apply 3 (.notice .leave)).first = none := by decide +kernel

/-- A LOSS entry of station 7. -/
def loss7 (sev : Severity) (occurrences : Byte) : Entry := ⟨7, 32, sev, 9, occurrences, 0, true⟩

/-- A table that ends in a LOSS entry of station 7, whatever came before it. -/
def losing (t : List Entry) : Chassis := { copy with table := t }

theorem meets_RosterReplacesTheRosterAndCreatesLosses :
    allAddrs.filter (fun a => setHas 0x000A a = false && (copy.record a).any (fun m => decide (m.state = .full))) = [7]
      ∧ ({ copy with table := List.replicate 31 (entry 1 1 .major 1 0) } : Chassis).table.length + 1 ≤ 32
      ∧ (∀ x ∈ List.replicate 31 (entry 1 1 .major 1 0), x.source = 32 → x.origin ∉ [(7 : Addr)])
      ∧ roster.loss = some .major ∧ ({ roster with loss := none } : RosterBody).loss = none
      ∧ ((losing [entry 1 1 .major 1 0, loss7 .minor 255]).table = [entry 1 1 .major 1 0] ++ loss7 .minor 255 :: []
        ∧ ∀ y ∈ [entry 1 1 .major 1 0] ++ [], ¬(y.origin = 7 ∧ y.source = 32))
      ∧ ((losing (List.replicate 31 (entry 1 1 .major 1 0) ++ [entry 1 2 .minor 1 0])).table
          = List.replicate 31 (entry 1 1 .major 1 0) ++ entry 1 2 .minor 1 0 :: []
        ∧ (∀ y ∈ List.replicate 31 (entry 1 1 .major 1 0), Severity.minor.rank < y.severity.rank)
        ∧ (losing (List.replicate 31 (entry 1 1 .major 1 0) ++ [entry 1 2 .minor 1 0])).table.length = 32)
      ∧ ((losing (List.replicate 32 (entry 1 1 .major 1 0))).table.length = 32
        ∧ ∀ y ∈ List.replicate 32 (entry 1 1 .major 1 0),
            ¬(y.origin = 7 ∧ y.source = 32) ∧ Severity.major.rank ≤ y.severity.rank) := by
  decide +kernel

/-! #### Supply and RESET -/

theorem meets_BoardReset : busy.power.resetLow = false ∧ busy.nothingDue := ⟨rfl, nothingDue_of (by decide +kernel)⟩

theorem meets_LocalLogAtTheResets : busy.power.resetLow = false ∧ busy.nothingDue := meets_BoardReset

theorem meets_EndOfPowerOnAndReleaseSampleThePins :
    State.reset.power.ended = false ∧ State.reset.power.resetLow = false
      ∧ (State.reset.withPower ⟨false, true⟩).power.resetLow = true ∧ (State.reset.withPower ⟨false, true⟩).power.ended = false
      ∧ (base.withPower ⟨true, true⟩).power = ⟨true, true⟩ ∧ base.items.qualifyTime ≠ 0 := by decide

/-! #### The bus up to the ack window -/

/-- An ADRIFT station. -/
def adrift : State := inState .adrift Chassis.empty

theorem meets_BusIdleAndAnothersStartBit :
    (base.withEngine Engine.reset).ready ∧ (base.withEngine Engine.reset).engine.breaking = false
      ∧ (base.withEngine Engine.reset).engine.bus = .brokenWait
      ∧ base.ready ∧ base.engine.bus = .idle ∧ base.ctl.station ≠ .adrift
      ∧ adrift.ready ∧ adrift.engine.bus = .idle ∧ adrift.ctl.station = .adrift ∧ adrift.legal :=
  ⟨ready_of (by decide +kernel), by decide, by decide, ready_of (by decide +kernel), by decide, by decide,
    ready_of (by decide +kernel), by decide, by decide, legal_of (by decide +kernel)⟩

theorem meets_StartBitOfAnOfferedFrame :
    (busy.ready ∧ busy.engine.bus = .idle ∧ busy.ctl.station = .member ∧ busy.rosterOwed = none
        ∧ busy.queue.inFlight = some (Head.start ⟨.leave, false, 0⟩))
      ∧ (∃ i rest, (busy.withQueue { busy.queue with inFlight := none }).queue.waiting = i :: rest ∧ i.linked = true
        ∧ i.notice = .fault ⟨31, .minor, 1, 0x15, 1⟩)
      ∧ (keeper.ready ∧ keeper.engine.bus = .idle ∧ keeper.ctl.station = .member ∧ ∃ b, keeper.rosterOwed = some b)
      ∧ ((inState .joining Chassis.empty).ready ∧ (inState .joining Chassis.empty).ctl.joinOwed = false
        ∧ (ctlOf (inState .joining Chassis.empty) (fun c => { c with joinOwed := true })).ready)
      ∧ (member.ready ∧ member.rosterOwed = none ∧ member.queue.items = []) :=
  ⟨⟨ready_of (by decide +kernel), by decide, by decide, by decide +kernel, by decide⟩, ⟨_, _, rfl, by decide, by decide⟩,
    ⟨ready_of (by decide +kernel), by decide, by decide, Option.isSome_iff_exists.mp (by decide +kernel)⟩,
    ⟨ready_of (by decide +kernel), by decide, ready_of (by decide +kernel)⟩,
    ⟨ready_of (by decide +kernel), by decide +kernel, by decide⟩⟩

/-- The station sends a frame and has not lost the bus. -/
def sending (losses : Nat) (p : Path) : State :=
  (withHead member { Head.start (itemOf .leave) with losses := losses }).withEngine
    { member.engine with bus := .arbitrating, phase := .body, sent := some ⟨p, 0⟩ }

theorem meets_ArbitrationLossAndAging :
    ((sending 6 .queue).ready ∧ (sending 6 .queue).engine.sent = some ⟨.queue, 0⟩)
      ∧ ((sending 7 .queue).ready ∧ (sending 7 .queue).engine.bus = .arbitrating ∧ (sending 7 .queue).engine.phase = .body
        ∧ (sending 7 .queue).engine.breaking = false)
      ∧ (sending 7 .roster).ready :=
  ⟨⟨ready_of (by decide +kernel), by decide⟩, ⟨ready_of (by decide +kernel), by decide, by decide, by decide⟩,
    ready_of (by decide +kernel)⟩

/-- A JOIN of a station. -/
def joinOf (a : Addr) : Frame := ⟨5, a, .join⟩

/-- A frame of station 9, which is no member. -/
def foreign9 : Frame := ⟨2, 9, .notice .leave⟩

/-- The station about to read back the body of a JOIN it sends itself. -/
def readingOwnJoin : State :=
  (readingBody (inState .joining Chassis.empty)).withEngine
    { base.engine with bus := .transmitting, phase := .body, sent := some ⟨.join, (joinOf 3).bits⟩ }

theorem meets_BodyReceived :
    (Sys2Proof.Spec.reading (readingBody member) ∧ readFrame 0 = none)
      ∧ (Sys2Proof.Spec.reading (readingBody member) ∧ readFrame fault7.bits = some fault7
        ∧ fault7.body ≠ .join ∧ member.chassis.record 7 ≠ none)
      ∧ (Sys2Proof.Spec.reading (readingBody member) ∧ readFrame foreign9.bits = some foreign9
        ∧ member.chassis.record 9 = none ∧ setHas (readingBody member).engine.foreign 9 = false)
      ∧ ((Sys2Proof.Spec.reading (readingBody base) ∧ readFrame (joinOf 3).bits = some (joinOf 3)
          ∧ (readingBody base).legal)
        ∧ Sys2Proof.Spec.reading (readingBody base) ∧ fault7.sender ≠ base.straps.addr
        ∧ Sys2Proof.Spec.reading (readingBody adrift) ∧ (readingBody adrift).legal)
      ∧ (Sys2Proof.Spec.reading (readingBody member) ∧ member.ctl.duties = none)
      ∧ ((Sys2Proof.Spec.reading (readingBody (inState .joining Chassis.empty))
          ∧ readFrame (joinOf 4).bits = some (joinOf 4) ∧ (readingBody (inState .joining Chassis.empty)).legal)
        ∧ Sys2Proof.Spec.reading (readingBody (inState .joining Chassis.empty))
        ∧ Sys2Proof.Spec.reading readingOwnJoin ∧ readingOwnJoin.legal)
      ∧ Sys2Proof.Spec.reading (readingBody keeper) ∧ keeper.ctl.duties = some ⟨[5], none, 0⟩ :=
  ⟨⟨reading_of (by decide +kernel), by decide +kernel⟩,
    ⟨reading_of (by decide +kernel), by decide +kernel, by decide, by decide +kernel⟩,
    ⟨reading_of (by decide +kernel), by decide +kernel, by decide +kernel, by decide +kernel⟩,
    ⟨⟨reading_of (by decide +kernel), by decide +kernel, legal_of (by decide +kernel)⟩, reading_of (by decide +kernel),
      by decide, reading_of (by decide +kernel), legal_of (by decide +kernel)⟩,
    ⟨reading_of (by decide +kernel), by decide⟩,
    ⟨⟨reading_of (by decide +kernel), by decide +kernel, legal_of (by decide +kernel)⟩, reading_of (by decide +kernel),
      reading_of (by decide +kernel), legal_of (by decide +kernel)⟩,
    reading_of (by decide +kernel), by decide⟩

/-! #### Sources, local records and the notice queue -/

theorem meets_AssertionsByClass :
    (base.monitor.source 0).cls = .off ∧ (base.monitor.source 24).cls = .major ∧ (base.monitor.source 24).latched = false
      ∧ (base.monitor.source 31).cls = .minor
      ∧ (16 : Byte) ≤ Sys2Proof.Spec.bump 15 ∧ Sys2Proof.Spec.bump 14 < (16 : Byte) ∧ (255 : Byte) ≤ Sys2Proof.Spec.bump 255
      ∧ ((base.monitor.setSource 5 ⟨.count, 16, true, 15, false⟩).source 5) = ⟨.count, 16, true, 15, false⟩ := by
  decide +kernel

/-- A local record. -/
def recordOf (n : BitVec 16) (source : BitVec 5) (st : LocalState) : Record := ⟨n, source, .minor, 255, 0, st⟩

theorem meets_RaisedFaultsInTheLocalLog :
    Log.powerOn.first = none
      ∧ (∃ l : Log, l.first ≠ none ∧ l.next.length = 7 ∧ (∀ x ∈ l.records, x.source ≠ 5) ∧ l.counter = 0xFFFF)
      ∧ (∃ l : Log, l.first ≠ none ∧ l.next.length = 8 ∧ ∀ x ∈ l.records, x.source ≠ 5)
      ∧ ∃ (l : Log) (pre post : List Record) (x : Record), l.first ≠ none ∧ l.records = pre ++ x :: post ∧ x.source = 5
        ∧ x.state = .unsent ∧ ∀ y ∈ pre ++ post, y.source ≠ 5 :=
  ⟨rfl, ⟨⟨some (recordOf 1 4 .queued), List.replicate 7 (recordOf 2 6 .queued), 0, 0xFFFF⟩, by decide +kernel⟩,
    ⟨⟨some (recordOf 1 4 .queued), List.replicate 8 (recordOf 2 6 .queued), 0, 9⟩, by decide +kernel⟩,
    ⟨⟨some (recordOf 1 4 .queued), [recordOf 2 5 .unsent], 0, 2⟩, [recordOf 1 4 .queued], [], recordOf 2 5 .unsent,
      by decide +kernel⟩⟩

/-- A FAULT item. -/
def faultItem (source : BitVec 6) (sev : Severity) (age : Nat) : Item := ⟨.fault ⟨source, sev, 200, 0, 1⟩, false, age⟩

theorem meets_FaultsInTheQueue :
    ((∀ i ∈ fullQueue.waiting, i.notice.isFault 17 = false)
        ∧ ({ fullQueue with waiting := fullQueue.waiting.take 6 } : Queue).count = 7
        ∧ (Sys2Proof.Spec.met { fullQueue with waiting := fullQueue.waiting.take 6 } 17 true).length + 1 < 8)
      ∧ (∃ pre post old older, Sys2Proof.Spec.met fullQueue 20 true = pre ++ old :: post ∧ old.notice = .fault older
        ∧ older.source = 20 ∧ ∀ i ∈ pre ++ post, i.notice.isFault 20 = false)
      ∧ (fullQueue.count = 8 ∧ ∃ l last, fullQueue.waiting = l ++ [last] ∧ last.notice = .resolve 3
        ∧ (Notice.fault (report 17 .major)).urgency < last.notice.urgency
        ∧ last.notice.urgency ≤ (Notice.fault (report 17 .minor)).urgency
        ∧ ∀ x ∈ l, Sys2Proof.Spec.before x last) :=
  ⟨by decide +kernel,
    ⟨[⟨.clear .first 0 880, false, 6⟩, ⟨.fault (report 14 .major), true, 2⟩, ⟨.fault (report 9 .major), true, 4⟩],
      [⟨.fault (report 5 .minor), true, 7⟩, ⟨.fault (report 11 .minor), true, 8⟩, ⟨.resolve 3, false, 9⟩],
      ⟨.fault (report 20 .minor), false, 5⟩, report 20 .minor, by decide +kernel⟩,
    by decide, ⟨fullQueue.waiting.take 6, ⟨.resolve 3, false, 9⟩, by unfold Sys2Proof.Spec.before; decide +kernel⟩⟩

theorem meets_ReturnedHeadMeetsItsSource :
    ((withHead member (Head.start (itemOf .leave))).queue.inFlight = some (Head.start (itemOf .leave))
        ∧ (∀ n, Notice.leave.isFault n = false) ∧ ∀ n, Notice.leave.isResolve n = false)
      ∧ (∃ (q : Queue) (pre post : List Item) (x : Item) (younger : Report),
        q.inFlight = some (Head.start (faultItem 5 .minor 0)) ∧ q.waiting = pre ++ x :: post ∧ x.notice = .fault younger
        ∧ younger.source = 5 ∧ ∀ i ∈ pre ++ post, i.notice.isFault 5 = false)
      ∧ (∃ q : Queue, q.inFlight = some (Head.start (itemOf (.resolve 5))) ∧ ∃ i ∈ q.waiting, i.notice.isFault 5 = true)
      ∧ ∃ q : Queue, q.inFlight = some (Head.start (itemOf (.resolve 5))) ∧ ∀ i ∈ q.waiting, i.notice.isFault 5 = false :=
  ⟨⟨rfl, fun _ => rfl, fun _ => rfl⟩,
    ⟨⟨some (Head.start (faultItem 5 .minor 0)), [faultItem 5 .major 1, itemOf .leave], 0, 2⟩, [], [itemOf .leave],
      faultItem 5 .major 1, ⟨5, .major, 200, 0, 1⟩, by decide +kernel⟩,
    ⟨⟨some (Head.start (itemOf (.resolve 5))), [faultItem 5 .major 1], 0, 2⟩, by decide +kernel⟩,
    ⟨⟨some (Head.start (itemOf (.resolve 5))), [faultItem 6 .major 1], 0, 2⟩, by decide +kernel⟩⟩

/-! #### The end of a frame -/

/-- The station with a break of its own on the bus, at a phase of the frame. -/
def breakingAt (s : State) (p : Phase) : State := s.withEngine { s.engine with phase := p, breaking := true }

/-- R47: a sender that breaks its frame reads and judges the body too, and drives no ack slot. -/
theorem test_breaking_sender_reads_the_body :
    after (.bodyReceived foreign9.bits) (breakingAt (sending 0 .queue) .body)
        (fun t => (t.engine.rx, t.engine.breaking, setHas t.engine.foreign 9, t.drivesAck))
      = some (some foreign9.bits, true, true, false) := by decide +kernel

theorem meets_BrokenFramesAndTransmissionFaults :
    ((sending 0 .queue).ready ∧ (sending 0 .queue).engine.breaking = false ∧ (0 : BodyBits) ≠ 1)
      ∧ (Sys2Proof.Spec.ending (hearing member fault7) ∧ Sys2Proof.Spec.broken (hearing member fault7) ⟨all, all, 0, true⟩
        ∧ Sys2Proof.Spec.broken (hearing member fault7) ⟨all, 0, 0xFF, false⟩)
      ∧ (Sys2Proof.Spec.ending (sending 0 .queue) ∧ Sys2Proof.Spec.broken (sending 0 .queue) ⟨all, 0, echoCheck 0, false⟩
        ∧ (sending 0 .queue).queue.inFlight = some (Head.start (itemOf .leave)))
      ∧ Sys2Proof.Spec.ending (sendingFrame keeper .roster ⟨0, 1, .roster roster⟩)
      ∧ Sys2Proof.Spec.ending (sendingFrame (inState .joining Chassis.empty) .join (joinOf 3))
      ∧ (breakingAt (sending 0 .queue) .body).ready
      ∧ ((breakingAt (base.withPower ⟨true, true⟩) .none).nothingDue
        ∧ (breakingAt (base.withPower ⟨true, true⟩) .none).operating = false
        ∧ (base.withPower ⟨true, true⟩).engine.breaking = false)
      ∧ base.nothingDue ∧ base.engine.phase = .none := by
  refine ⟨⟨ready_of (by decide +kernel), by decide, by decide⟩,
    ⟨ending_of (by decide +kernel), Or.inl rfl, Or.inr (Or.inr (Or.inl ⟨rfl, rfl⟩))⟩,
    ⟨⟨ready_of (by decide +kernel), Or.inl rfl⟩, Or.inr (Or.inr (Or.inr ⟨by decide, by decide +kernel⟩)), by decide⟩,
    ending_of (by decide +kernel), ending_of (by decide +kernel), ready_of (by decide +kernel),
    ⟨nothingDue_of (by decide +kernel), by decide, by decide⟩, nothingDue_of (by decide +kernel), by decide⟩

/-- A MEMBER whose own record has a state and a miss count. -/
def recorded (st : MemberState) (miss : BitVec 4) : State :=
  inState .member { copy with records := recordsOf (fun a => if a = 3 then some ⟨st, miss⟩ else copy.record a) }

theorem meets_LossOfStepCauses :
    Sys2Proof.Spec.ending (hearing member fault7) ∧ (hearing member fault7).ctl.station.inStep = true
      ∧ ¬Sys2Proof.Spec.broken (hearing member fault7) ⟨all, all, echoCheck all ^^^ 1, false⟩
      ∧ ¬Sys2Proof.Spec.broken (hearing member fault7) ⟨all, 0x0082, echoCheck 0x0082, false⟩
      ∧ (Sys2Proof.Spec.heard (hearing member ⟨2, 3, .notice .leave⟩) ⟨2, 3, .notice .leave⟩
        ∧ ¬Sys2Proof.Spec.broken (hearing member ⟨2, 3, .notice .leave⟩) (echoOf all))
      ∧ (Sys2Proof.Spec.heard (hearing member ⟨0, 1, .roster { roster with generation := 11 }⟩)
          ⟨0, 1, .roster { roster with generation := 11 }⟩ ∧ (11 : BitVec 16) ≠ member.chassis.generation + 1)
      ∧ ((∀ f, ¬Sys2Proof.Spec.heard (hearingBad (recorded .full 3)) f)
        ∧ (recorded .full 3).chassis.record 3 = some ⟨.full, 3⟩ ∧ (recorded .departing 0).chassis.record 3 = some ⟨.departing, 0⟩
        ∧ ¬Sys2Proof.Spec.broken (hearingBad (recorded .full 3)) (echoOf all)) :=
  ⟨ending_of (by decide +kernel), by decide, notBroken_of (by decide +kernel), notBroken_of (by decide +kernel),
    ⟨heard_of rfl (by decide +kernel), notBroken_of (by decide +kernel)⟩, ⟨heard_of rfl (by decide +kernel), by decide⟩,
    ⟨unheard_of (by decide +kernel), by decide +kernel, by decide +kernel, notBroken_of (by decide +kernel)⟩⟩

theorem meets_SettledNoticeOfAnotherStation :
    (Sys2Proof.Spec.agreed (hearing member fault7) (echoOf all) ∧ Sys2Proof.Spec.heard (hearing member fault7) fault7
        ∧ member.chassis.record 7 ≠ none ∧ setWithin member.chassis.map all = true)
      ∧ Sys2Proof.Spec.agreed (hearing (inState .leaving copy) fault7) (echoOf all)
      ∧ (Sys2Proof.Spec.heardAll ((inState .leaving copy).chassis.apply 7 fault7.body)).rosterStation ≠ none :=
  ⟨⟨agreed_of (by decide +kernel) (by decide +kernel), heard_of rfl (by decide +kernel), by decide +kernel, by decide +kernel⟩,
    agreed_of (by decide +kernel) (by decide +kernel), by decide +kernel⟩

/-- The station with a notice of its own on the bus. -/
def own (s : State) (n : Notice) : State :=
  sendingFrame (withHead s (Head.start (itemOf n))) .queue ⟨2, s.straps.addr, .notice n⟩

theorem meets_OwnSettledNotice :
    (Sys2Proof.Spec.agreed (own member (.clear .first 0 500)) (echoOf all)
        ∧ Sys2Proof.Spec.heard (own member (.clear .first 0 500)) ⟨2, 3, .notice (.clear .first 0 500)⟩)
      ∧ (Sys2Proof.Spec.agreed (own member (.fault (report 5 .critical))) (echoOf all)
        ∧ Sys2Proof.Spec.heard (own member (.fault (report 5 .critical))) ⟨2, 3, .notice (.fault (report 5 .critical))⟩)
      ∧ Sys2Proof.Spec.agreed (own member .leave) (echoOf all)
      ∧ (Sys2Proof.Spec.heardAll (member.chassis.apply 3 (.notice .leave))).rosterStation ≠ none :=
  ⟨⟨agreed_of (by decide +kernel) (by decide +kernel), heard_of rfl (by decide +kernel)⟩,
    ⟨agreed_of (by decide +kernel) (by decide +kernel), heard_of rfl (by decide +kernel)⟩,
    agreed_of (by decide +kernel) (by decide +kernel), by decide +kernel⟩

/-- A ROSTER that admits station 5. -/
def admitting5 : RosterBody := ⟨10, 0x00AA, 0, 0x0020, some 5, 3, some .major, 32, true⟩

theorem meets_SettledRosterThatKeepsTheStation :
    (Sys2Proof.Spec.agreed (hearing member ⟨0, 1, .roster admitting5⟩) (echoOf 0x00AA)
        ∧ Sys2Proof.Spec.heard (hearing member ⟨0, 1, .roster admitting5⟩) ⟨0, 1, .roster admitting5⟩
        ∧ setWithin admitting5.members 0x00AA = true ∧ setHas admitting5.members 3 = true
        ∧ admitting5.generation = member.chassis.generation + 1)
      ∧ (Sys2Proof.Spec.agreed (sendingFrame keeper .roster ⟨0, 1, .roster admitting5⟩) (echoOf 0x00AA)
        ∧ Sys2Proof.Spec.heard (sendingFrame keeper .roster ⟨0, 1, .roster admitting5⟩) ⟨0, 1, .roster admitting5⟩
        ∧ (keeper.chassis.apply 1 (.roster admitting5)).rosterStation = some 1)
      ∧ (inState .leaving copy).ctl.station = .leaving :=
  ⟨⟨agreed_of (by decide +kernel) (by decide +kernel), heard_of rfl (by decide +kernel), by decide, by decide, by decide⟩,
    ⟨agreed_of (by decide +kernel) (by decide +kernel), heard_of rfl (by decide +kernel), by decide +kernel⟩, rfl⟩

/-- A SNAP of station 1. -/
def snap (index : BitVec 6) : Frame := ⟨0, 1, .snap index 0⟩

/-- A MEMBER while station 5 is being admitted. -/
def admittingState (total : BitVec 6) : State := ctlOf member (fun c => { c with admission := some ⟨5, total⟩ })

theorem meets_SettledSnapAtAMember :
    (Sys2Proof.Spec.agreed (hearing (admittingState 34) (snap 33)) (echoOf all)
        ∧ Sys2Proof.Spec.heard (hearing (admittingState 34) (snap 33)) (snap 33) ∧ (33 : BitVec 6) = 34 - 1)
      ∧ (Sys2Proof.Spec.agreed (hearing (admittingState 34) (snap 32)) (echoOf all) ∧ (32 : BitVec 6) ≠ 34 - 1
        ∧ ∀ a, member.ctl.admission = some a → (32 : BitVec 6) ≠ a.total - 1)
      ∧ Sys2Proof.Spec.agreed (sendingFrame (withDuties keeper ⟨[], some ⟨5, 0, 1⟩, 0⟩) .roster (snap 1)) (echoOf all)
      ∧ ((0 : BitVec 6) + 1 = 1 ∧ (32 : BitVec 6) + 1 ≠ 34) :=
  ⟨⟨agreed_of (by decide +kernel) (by decide +kernel), heard_of rfl (by decide +kernel), by decide⟩,
    ⟨agreed_of (by decide +kernel) (by decide +kernel), by decide, fun _ h => (Option.some_ne_none _ h.symm).elim⟩,
    agreed_of (by decide +kernel) (by decide +kernel), by decide⟩

/-- A ROSTER that removes station 3. -/
def removing (departing : StationSet) : Frame := ⟨0, 1, .roster ⟨10, 0x0082, departing, 0, none, 3, some .major, 0, false⟩⟩

/-- The copy of a chassis of stations 3, DEPARTING, and 7. -/
def ending37 : Chassis :=
  { copy with records := recordsOf (fun a => if a = 3 then some ⟨.departing, 0⟩ else if a = 7 then some ⟨.full, 0⟩ else none) }

/-- The copy of a chassis of station 3 alone. -/
def alone : Chassis := { copy with records := recordsOf (fun a => if a = 3 then some ⟨.full, 0⟩ else none) }

theorem meets_RemovalFromTheChassis :
    (Sys2Proof.Spec.agreed (hearing member (removing 0)) (echoOf 0x0082)
        ∧ Sys2Proof.Spec.heard (hearing member (removing 0)) (removing 0) ∧ member.chassis.record 1 ≠ none)
      ∧ (Sys2Proof.Spec.agreed (hearing (inState .leaving copy) (removing 8)) (echoOf 0x0082)
        ∧ Sys2Proof.Spec.heard (hearing member (removing 8)) (removing 8))
      ∧ Sys2Proof.Spec.agreed (hearing adrift (removing 8)) (echoOf 0x0082)
      ∧ (Sys2Proof.Spec.agreed (hearing (inState .leaving ending37) ⟨4, 7, .notice .leave⟩) (echoOf 0x0088)
        ∧ Sys2Proof.Spec.heard (hearing (inState .leaving ending37) ⟨4, 7, .notice .leave⟩) ⟨4, 7, .notice .leave⟩
        ∧ (Sys2Proof.Spec.heardAll (ending37.apply 7 (.notice .leave))).rosterStation = none)
      ∧ Sys2Proof.Spec.agreed (own (inState .member alone) .leave) (echoOf 0x0008)
      ∧ (Sys2Proof.Spec.heardAll (alone.apply 3 (.notice .leave))).rosterStation = none :=
  ⟨⟨agreed_of (by decide +kernel) (by decide +kernel), heard_of rfl (by decide +kernel), by decide +kernel⟩,
    ⟨agreed_of (by decide +kernel) (by decide +kernel), heard_of rfl (by decide +kernel)⟩,
    agreed_of (by decide +kernel) (by decide +kernel),
    ⟨agreed_of (by decide +kernel) (by decide +kernel), heard_of rfl (by decide +kernel), by decide +kernel⟩,
    agreed_of (by decide +kernel) (by decide +kernel), by decide +kernel⟩

/-- The copy of a chassis without a FULL member: 3 DEPARTING and 7 NEW. -/
def left37 : Chassis :=
  { copy with records := recordsOf (fun a => if a = 3 then some ⟨.departing, 0⟩ else if a = 7 then some ⟨.new, 0⟩ else none) }

/-- LEAVING in that chassis, perhaps with station 5 being admitted. -/
def leftOver (total : Option (BitVec 6)) : State :=
  ctlOf (inState .leaving left37) (fun c => { c with admission := total.map (fun n => ⟨5, n⟩) })

/-- A ROSTER with every member NEW. -/
def allNew (sender : Addr) : Frame := ⟨0, sender, .roster ⟨10, 0x0088, 0, 0x0088, none, 3, some .major, 0, false⟩⟩

/-- A SNAP of a station. -/
def snapBy (sender : Addr) : Frame := ⟨0, sender, .snap 1 0⟩

theorem meets_RemovalFromTheChassis_at_other_frames :
    (Sys2Proof.Spec.agreed (hearing (leftOver none) (allNew 7)) (echoOf 0x0088)
        ∧ Sys2Proof.Spec.heard (hearing (leftOver none) (allNew 7)) (allNew 7)
        ∧ Sys2Proof.Spec.agreed (sendingFrame (leftOver none) .roster (allNew 3)) (echoOf 0x0088)
        ∧ left37.record 7 ≠ none ∧ (left37.apply 7 (allNew 7).body).rosterStation = none
        ∧ (left37.apply 3 (allNew 3).body).rosterStation = none)
      ∧ (Sys2Proof.Spec.agreed (hearing (leftOver none) (snapBy 7)) (echoOf 0x0088)
        ∧ Sys2Proof.Spec.heard (hearing (leftOver none) (snapBy 7)) (snapBy 7)
        ∧ Sys2Proof.Spec.agreed (hearing (leftOver (some 2)) (snapBy 7)) (echoOf 0x0088) ∧ (1 : BitVec 6) = 2 - 1
        ∧ (Sys2Proof.Spec.heardAll left37).rosterStation = none
        ∧ (Sys2Proof.Spec.heardAll (left37.setMemberState 5 .full)).rosterStation = none)
      ∧ ((Sys2Proof.Spec.counted left37 0x0080).rosterStation = none ∧ (Sys2Proof.Spec.counted left37 0).rosterStation = none)
      ∧ (Sys2Proof.Spec.agreed (hearing (leftOver none) fault7) (echoOf 0x0080)
        ∧ Sys2Proof.Spec.unsettled (hearing (leftOver none) fault7) (echoOf 0x0080) fault7)
      ∧ Sys2Proof.Spec.badBody (hearingBad (leftOver none)) (echoOf 0)
      ∧ (Sys2Proof.Spec.agreed (own (leftOver none) .leave) (echoOf 0x0080)
        ∧ Sys2Proof.Spec.agreed (sendingFrame (leftOver none) .roster (snapBy 3)) (echoOf 0x0080)
        ∧ setWithin left37.map 0x0080 = false)
      ∧ Sys2Proof.Spec.foreignFrame (hearing (leftOver none) foreign9) foreign9
      ∧ left37.rosterStation = none :=
  ⟨⟨agreed_of (by decide +kernel) (by decide +kernel), heard_of rfl (by decide +kernel),
      agreed_of (by decide +kernel) (by decide +kernel), by decide +kernel, by decide +kernel, by decide +kernel⟩,
    ⟨agreed_of (by decide +kernel) (by decide +kernel), heard_of rfl (by decide +kernel),
      agreed_of (by decide +kernel) (by decide +kernel), by decide, by decide +kernel, by decide +kernel⟩,
    ⟨by decide +kernel, by decide +kernel⟩,
    ⟨agreed_of (by decide +kernel) (by decide +kernel), heard_of rfl (by decide +kernel), rfl, by decide,
      Or.inr ⟨by decide +kernel, fun _ => by decide +kernel, fun _ h => by cases h⟩⟩,
    ⟨unheard_of (by decide +kernel), rfl, Or.inr (by decide +kernel)⟩,
    ⟨agreed_of (by decide +kernel) (by decide +kernel), agreed_of (by decide +kernel) (by decide +kernel), by decide +kernel⟩,
    ⟨heard_of rfl (by decide +kernel), rfl, by decide, by decide, by decide +kernel⟩, by decide +kernel⟩

/-- A joiner that expects a SNAP. -/
def joiner (next total : BitVec 6) (withFirst : Bool) : State :=
  ctlOf (inState .transfer { copy with settle := 0 })
    (fun c => { c with joinTimer := some 1, transfer := some ⟨next, total, withFirst⟩ })

theorem meets_FramesThatDoNotSettle :
    (Sys2Proof.Spec.agreed (hearing member fault7) (echoOf 0x0082)
        ∧ Sys2Proof.Spec.unsettled (hearing member fault7) (echoOf 0x0082) fault7)
      ∧ (Sys2Proof.Spec.agreed (hearing member (joinOf 5)) (echoOf 0)
        ∧ Sys2Proof.Spec.unsettled (hearing member (joinOf 5)) (echoOf 0) (joinOf 5))
      ∧ (Sys2Proof.Spec.agreed (hearing member (removing 0)) (echoOf 2)
        ∧ Sys2Proof.Spec.unsettled (hearing member (removing 0)) (echoOf 2) (removing 0))
      ∧ (Sys2Proof.Spec.agreed (hearingBad (recorded .full 2)) (echoOf 0x0082)
        ∧ Sys2Proof.Spec.badBody (hearingBad (recorded .full 2)) (echoOf 0x0082)
        ∧ (0 : StationSet) &&& (recorded .departing 2).chassis.map = 0)
      ∧ (Sys2Proof.Spec.agreed (hearing member foreign9) (echoOf 0x0082)
        ∧ Sys2Proof.Spec.foreignFrame (hearing member foreign9) foreign9)
      ∧ ((inState .leaving copy).ctl.station = .leaving
        ∧ (Sys2Proof.Spec.counted (inState .leaving copy).chassis 0x0082).rosterStation ≠ none)
      ∧ ((joiner 0 1 false).ctl.station = .transfer
        ∧ Sys2Proof.Spec.agreed (hearing (joiner 0 1 false) fault7) (echoOf 0x0082)
        ∧ Sys2Proof.Spec.unsettled (hearing (joiner 0 1 false) fault7) (echoOf 0x0082) fault7
        ∧ Sys2Proof.Spec.agreed (hearing (joiner 0 1 false) (joinOf 5)) (echoOf 0)
        ∧ Sys2Proof.Spec.unsettled (hearing (joiner 0 1 false) (joinOf 5)) (echoOf 0) (joinOf 5)
        ∧ Sys2Proof.Spec.agreed (hearingBad (joiner 0 1 false)) (echoOf 0x0082)
        ∧ Sys2Proof.Spec.badBody (hearingBad (joiner 0 1 false)) (echoOf 0)
        ∧ Sys2Proof.Spec.foreignFrame (hearing (joiner 0 1 false) foreign9) foreign9) :=
  ⟨⟨agreed_of (by decide +kernel) (by decide +kernel), heard_of rfl (by decide +kernel), rfl, by decide,
      Or.inr ⟨by decide +kernel, fun _ => by decide +kernel, fun _ h => by cases h⟩⟩,
    ⟨agreed_of (by decide +kernel) (by decide +kernel), heard_of rfl (by decide +kernel), rfl, by decide, Or.inl rfl⟩,
    ⟨agreed_of (by decide +kernel) (by decide +kernel), heard_of rfl (by decide +kernel), rfl, by decide,
      Or.inr ⟨by decide +kernel, fun h => absurd rfl (h _), fun _ h => by cases h; decide⟩⟩,
    ⟨agreed_of (by decide +kernel) (by decide +kernel),
      ⟨unheard_of (by decide +kernel), rfl, Or.inl (fun m h => by
        have e : (recorded .full 2).chassis.record 3 = some ⟨.full, 2⟩ := by decide +kernel
        cases e.symm.trans h
        decide)⟩, by decide +kernel⟩,
    ⟨agreed_of (by decide +kernel) (by decide +kernel), heard_of rfl (by decide +kernel), rfl, by decide, by decide,
      by decide +kernel⟩,
    ⟨rfl, by decide +kernel⟩,
    rfl, agreed_of (by decide +kernel) (by decide +kernel),
    ⟨heard_of rfl (by decide +kernel), rfl, by decide,
      Or.inr ⟨by decide +kernel, fun _ => by decide +kernel, fun _ h => by cases h⟩⟩,
    agreed_of (by decide +kernel) (by decide +kernel), ⟨heard_of rfl (by decide +kernel), rfl, by decide, Or.inl rfl⟩,
    agreed_of (by decide +kernel) (by decide +kernel), ⟨unheard_of (by decide +kernel), rfl, Or.inr (by decide +kernel)⟩,
    heard_of rfl (by decide +kernel), rfl, by decide, by decide, by decide +kernel⟩

theorem meets_OwnFramesThatDoNotSettle :
    (Sys2Proof.Spec.agreed (own member .leave) (echoOf 0x0082)
        ∧ Sys2Proof.Spec.heard (own member .leave) ⟨2, 3, .notice .leave⟩ ∧ setWithin member.chassis.map 0x0082 = false)
      ∧ (Sys2Proof.Spec.agreed (sendingFrame keeper .roster ⟨0, 1, .roster admitting5⟩) (echoOf all)
        ∧ setWithin admitting5.members all = false)
      ∧ Sys2Proof.Spec.agreed (sendingFrame keeper .roster (snap 1)) (echoOf 0)
      ∧ Sys2Proof.Spec.heard (sendingFrame keeper .roster (snap 1)) (snap 1)
      ∧ setWithin keeper.chassis.map 0 = false :=
  ⟨⟨agreed_of (by decide +kernel) (by decide +kernel), heard_of rfl (by decide +kernel), by decide +kernel⟩,
    ⟨agreed_of (by decide +kernel) (by decide +kernel), by decide⟩, agreed_of (by decide +kernel) (by decide +kernel),
    heard_of rfl (by decide +kernel), by decide +kernel⟩

theorem meets_CompleteFramesOutsideTheChassis :
    (Sys2Proof.Spec.ending (hearing base fault7) ∧ ¬Sys2Proof.Spec.broken (hearing base fault7) (echoOf all))
      ∧ Sys2Proof.Spec.ending (hearing (inState .joining Chassis.empty) ⟨0, 1, .roster admitting5⟩)
      ∧ admitting5.admitted ≠ some 3
      ∧ (Sys2Proof.Spec.ending (hearing (inState .joining Chassis.empty) ⟨0, 1, .roster { admitting5 with admitted := some 3 }⟩)
        ∧ ¬Sys2Proof.Spec.broken
            (hearing (inState .joining Chassis.empty) ⟨0, 1, .roster { admitting5 with admitted := some 3 }⟩) (echoOf 2)
        ∧ setWithin admitting5.members 2 = false)
      ∧ (Sys2Proof.Spec.ending (sendingFrame (inState .joining Chassis.empty) .join (joinOf 3))
        ∧ Sys2Proof.Spec.heard (sendingFrame (inState .joining Chassis.empty) .join (joinOf 3)) (joinOf 3)
        ∧ ¬Sys2Proof.Spec.broken (sendingFrame (inState .joining Chassis.empty) .join (joinOf 3)) (echoOf 0))
      ∧ Sys2Proof.Spec.ending (hearing adrift (removing 0)) ∧ setWithin 0x0082 2 = false
      ∧ ¬Sys2Proof.Spec.broken (hearing adrift (removing 0)) (echoOf 2) :=
  ⟨⟨ending_of (by decide +kernel), notBroken_of (by decide +kernel)⟩, ending_of (by decide +kernel), by decide,
    ⟨ending_of (by decide +kernel), notBroken_of (by decide +kernel), by decide⟩,
    ⟨ending_of (by decide +kernel), heard_of rfl (by decide +kernel), notBroken_of (by decide +kernel)⟩,
    ending_of (by decide +kernel), by decide, notBroken_of (by decide +kernel)⟩

/-! #### The roster station, joining and ADRIFT -/

/-- A full copy. -/
def fullCopy : Chassis :=
  { copy with table := List.replicate 31 (entry 1 1 .major 1 0) ++ [entry 7 32 .major 1 0], first := some ⟨1, 32, .major, 9, 0⟩ }

theorem meets_RosterFramesOwed :
    (recorded .departing 0).chassis.record 3 = some ⟨.departing, 0⟩ ∧ (recorded .full 3).chassis.record 3 = some ⟨.full, 3⟩
      ∧ (∀ a : Fin 16, ∀ m ∈ copy.record (BitVec.ofFin a), m.miss < copy.dropLimit ∧ m.state ≠ .departing)
      ∧ fullCopy.table.length = 32 ∧ fullCopy.first = some ⟨1, 32, .major, 9, 0⟩
      ∧ fullCopy.table[31]? = some (entry 7 32 .major 1 0) := by decide +kernel

/-- A JOINING station whose join wait runs. -/
def waiting (traffic : Bool) : State :=
  ctlOf (inState .joining Chassis.empty) (fun c => { c with joinTimer := some 255, heardTraffic := traffic })

theorem meets_Founding :
    (waiting false).ready ∧ (waiting false).ctl.station = .joining ∧ (waiting false).ctl.joinTimer ≠ none
      ∧ (waiting false).ctl.heardTraffic = false ∧ (waiting false).legal :=
  ⟨ready_of (by decide +kernel), by decide, by decide, by decide, legal_of (by decide +kernel)⟩

theorem meets_AutomaticJoinAndJoinTimers :
    (ctlOf base (fun c => { c with joinPending := true, joinTimer := some 1 })).ready ∧ (waiting true).ready
      ∧ (joiner 0 1 false).ready ∧ (joiner 0 1 false).ctl.station = .transfer ∧ (joiner 0 1 false).ctl.joinTimer ≠ none :=
  ⟨ready_of (by decide +kernel), ready_of (by decide +kernel), ready_of (by decide +kernel), by decide, by decide⟩

theorem meets_RecordsFollowTheQueue :
    ((fullQueue.offerFault (report 17 .critical) true).displaced = some ⟨.resolve 3, false, 9⟩
        ∧ (fullQueue.offerFault (report 22 .minor) true).taken = false
        ∧ (fullQueue.offerFault (report 20 .minor) true).displaced = none)
      ∧ ((({ fullQueue with waiting := fullQueue.waiting.take 6 ++ [⟨.fault (report 3 .minor), true, 9⟩] } : Queue).offerFault
          (report 17 .critical) true).displaced = some ⟨.fault (report 3 .minor), true, 9⟩)
      ∧ ((fullQueue.offerFault (report 22 .minor) false).taken = false
        ∧ (member.queue.offerFault (report 22 .minor) false).taken = true
        ∧ (fullQueue.offerFault (report 17 .critical) false).displaced = some ⟨.resolve 3, false, 9⟩
        ∧ (({ fullQueue with waiting := fullQueue.waiting.take 6 ++ [⟨.fault (report 3 .minor), true, 9⟩] } : Queue).offerFault
          (report 17 .critical) false).displaced = some ⟨.fault (report 3 .minor), true, 9⟩
        ∧ ∃ pre post old, fullQueue.waiting = pre ++ old :: post ∧ old.notice.isFault 20 = true ∧ old.linked = true
          ∧ ∀ i ∈ pre ++ post, i.notice.isFault 20 = false)
      ∧ (∀ r ∈ busy.log.records, r.state ≠ .unsent)
      ∧ ∃ l : Log, l.records = [recordOf 1 4 .queued] ++ recordOf 2 5 .unsent :: [recordOf 3 6 .queued] :=
  ⟨by decide +kernel, by decide +kernel,
    ⟨by decide +kernel, by decide +kernel, by decide +kernel, by decide +kernel, fullQueue.waiting.take 3, fullQueue.waiting.drop 4,
      ⟨.fault (report 20 .minor), true, 5⟩, by decide +kernel⟩, by decide +kernel,
    ⟨⟨some (recordOf 1 4 .queued), [recordOf 2 5 .unsent, recordOf 3 6 .queued], 0, 3⟩, by decide⟩⟩

/-- A ROSTER that admits station 3. -/
def admitting3 : Frame := ⟨0, 1, .roster ⟨10, all, 0, 8, some 3, 3, some .major, 32, true⟩⟩

theorem meets_AdmittedJoinerEntersTransfer :
    Sys2Proof.Spec.agreed (hearing (inState .joining Chassis.empty) admitting3) (echoOf all)
      ∧ Sys2Proof.Spec.heard (hearing (inState .joining Chassis.empty) admitting3) admitting3
      ∧ setWithin all all = true :=
  ⟨agreed_of (by decide +kernel) (by decide +kernel), heard_of rfl (by decide +kernel), by decide⟩

/-- A SNAP with content. -/
def snapOf (index : BitVec 6) (content : BitVec 90) : Frame := ⟨0, 1, .snap index content⟩

/-- A header of one SNAP. -/
def header1 : BitVec 90 := Header.content ⟨1, 880, true, 2, 3⟩

theorem meets_TransferCompletes :
    Sys2Proof.Spec.snapSettles (hearing (joiner 0 1 false) (snapOf 0 header1)) (echoOf all) (snapOf 0 header1) ⟨0, 1, false⟩ 0
        header1
      ∧ (hearing (joiner 0 1 false) (snapOf 0 header1)).legal
      ∧ ∃ d, Sys2Proof.Spec.snapTaken (joiner 0 1 false).chassis d ⟨0, 1, false⟩ 0 header1 :=
  ⟨⟨agreed_of (by decide +kernel) (by decide +kernel), heard_of rfl (by decide +kernel), rfl, rfl, rfl, by decide,
      by decide +kernel, by decide +kernel, rfl⟩,
    legal_of (by decide +kernel), ⟨_, Or.inl ⟨rfl, by decide +kernel, rfl⟩⟩⟩

/-- The content of a SNAP of an entry. -/
def entryContent : BitVec 90 := (entry 7 32 .major 1 0).content

/-- The content of a SNAP of the first record. -/
def firstContent : BitVec 90 := First.content ⟨7, 32, .major, 9, 0⟩

theorem meets_JoinerInTransfer :
    (Sys2Proof.Spec.snapSettles (hearing (joiner 1 34 true) (snapOf 1 firstContent)) (echoOf all) (snapOf 1 firstContent)
          ⟨1, 34, true⟩ 1 firstContent
        ∧ (∃ d, Sys2Proof.Spec.snapTaken (joiner 1 34 true).chassis d ⟨1, 34, true⟩ 1 firstContent)
        ∧ (1 : BitVec 6) + 1 ≠ 34 ∧ (2 : BitVec 6) ≠ 1)
      ∧ (∃ d, Sys2Proof.Spec.snapTaken (joiner 1 33 false).chassis d ⟨1, 33, false⟩ 1 entryContent)
      ∧ (∀ d, ¬Sys2Proof.Spec.snapTaken (joiner 0 2 false).chassis d ⟨0, 2, false⟩ 0 header1)
      ∧ (Sys2Proof.Spec.agreed (hearing (joiner 0 1 false) fault7) (echoOf all)
        ∧ Sys2Proof.Spec.heard (hearing (joiner 0 1 false) fault7) fault7)
      ∧ (Sys2Proof.Spec.agreed (hearing (joiner 0 1 false) (removing 0)) (echoOf 0x0082)
        ∧ Sys2Proof.Spec.heard (hearing (joiner 0 1 false) (removing 0)) (removing 0)
        ∧ roster.generation = (joiner 0 1 false).chassis.generation + 1) := by
  refine ⟨⟨⟨agreed_of (by decide +kernel) (by decide +kernel), heard_of rfl (by decide +kernel), rfl, rfl, rfl, by decide,
      by decide +kernel, by decide +kernel, rfl⟩,
      ⟨_, Or.inr (Or.inl ⟨rfl, rfl, _, (by decide +kernel : readFirst firstContent = some ⟨7, 32, .major, 9, 0⟩), rfl⟩)⟩,
      by decide, by decide⟩,
    ⟨_, Or.inr (Or.inr ⟨by decide, by decide, _,
      (by decide +kernel : readEntry entryContent = some { entry 7 32 .major 1 0 with absent := false }), by decide +kernel,
      rfl⟩)⟩, ?_, ⟨agreed_of (by decide +kernel) (by decide +kernel), heard_of rfl (by decide +kernel)⟩,
    ⟨agreed_of (by decide +kernel) (by decide +kernel), heard_of rfl (by decide +kernel), by decide⟩⟩
  rintro d (⟨_, h, _⟩ | ⟨h, _⟩ | ⟨h, _⟩)
  · exact absurd h (by decide +kernel)
  · exact absurd h (by decide)
  · exact absurd rfl h

/-- An ADRIFT station whose wait runs, after some complete frames. -/
def drifting (frames : Nat) : State := ctlOf adrift (fun c => { c with joinTimer := some 20, adriftFrames := frames })

theorem meets_AdriftExits :
    (drifting 15).ready ∧ (drifting 15).ctl.station = .adrift ∧ (drifting 15).ctl.joinTimer ≠ none
      ∧ 16 ≤ (drifting 16).ctl.adriftFrames ∧ (drifting 15).ctl.adriftFrames < 16 :=
  ⟨ready_of (by decide +kernel), by decide, by decide, by decide, by decide⟩

theorem meets_CountsAtTheirLimits :
    (4 ≤ (member.withEngine { member.engine with broken := 4 }).engine.broken
        ∧ (member.withEngine { member.engine with broken := 3 }).engine.broken < 4)
      ∧ (member.ready ∧ member.engine.bus = .idle ∧ (base.withEngine Engine.reset).ready)
      ∧ (withHead member { Head.start (itemOf .leave) with transmissions := 16 }).queue.inFlight
        = some ⟨itemOf .leave, 16, 0, 4, false⟩
      ∧ (withDuties keeper ⟨[], none, 16⟩).ctl.duties = some ⟨[], none, 16⟩ :=
  ⟨by decide, ⟨ready_of (by decide +kernel), by decide, ready_of (by decide +kernel)⟩, by decide, by decide⟩

/-! #### Lines and the Management Port -/

theorem meets_LinesAndTheirTrackers :
    (lined.ready ∧ (∀ k : Fin 24, (0xFFFFDF : BitVec 24).getLsbD k.val
        = if k = 5 then !lined.monitor.fin.getLsbD 5 else lined.monitor.fin.getLsbD k.val)
        ∧ lined.monitor.fin.getLsbD 5 ≠ (lined.monitor.line 5).polarity.activeLevel
        ∧ (lined.monitor.line 5).tracker = .inactive ∧ lined.items.qualifyTime ≠ 0)
      ∧ (fin5.ready ∧ fin5.monitor.fin.getLsbD 5 = (fin5.monitor.line 5).polarity.activeLevel
        ∧ (fin5.monitor.line 5).tracker = .qualifying ∧ (fin5.monitor.line 5).timer ≠ none
        ∧ (fin5.monitor.line 5).mode = .level)
      ∧ ((base.withItems { base.items with qualifyTime := 0 }).items.qualifyTime = 0 ∧ (base.monitor.line 5).mode = .edge
        ∧ base.monitor.fin.getLsbD 5 = (base.monitor.line 5).polarity.activeLevel) :=
  ⟨⟨ready_of (by decide +kernel), by decide +kernel, by decide +kernel, by decide +kernel, by decide⟩,
    ⟨ready_of (by decide +kernel), by decide +kernel, by decide +kernel, by decide +kernel, by decide +kernel⟩,
    by decide +kernel⟩

theorem meets_ResponsesOnThePort :
    encodeTransaction (.status [0xFF]) = some [0x01, 0xFF] ∧ (Instr.status [0xFF]).wf = true
      ∧ encodeTransaction (.commandCodeNamesNoCommand []) = some [] ∧ (Instr.commandCodeNamesNoCommand []).wf = true
      ∧ State.reset.nothingDue ∧ State.reset.power.ended = false
      ∧ (base.withPower ⟨true, true⟩).nothingDue ∧ (base.withPower ⟨true, true⟩).power.resetLow = true
      ∧ straddled.nothingDue ∧ straddled.port.straddle ≠ none
      ∧ base.nothingDue ∧ base.operating = true ∧ base.port.straddle = none :=
  ⟨by decide, by decide, by decide, by decide, nothingDue_of (by decide +kernel), by decide, nothingDue_of (by decide +kernel),
    by decide, nothingDue_of (by decide +kernel), by decide, nothingDue_of (by decide +kernel), by decide, by decide⟩

theorem meets_StatusCommand : busy.listening ∧ busy.copyValid = true ∧ base.listening ∧ base.copyValid = false :=
  ⟨listening_of (by decide +kernel), by decide, listening_of (by decide +kernel), by decide⟩

theorem meets_AlertCommand : busy.listening := listening_of (by decide +kernel)

theorem meets_ChassisReads :
    busy.listening ∧ busy.copyValid = true ∧ (31 : Byte) ≤ 31 ∧ (0 : Byte) ≤ 31 ∧ base.listening ∧ base.copyValid = false :=
  ⟨listening_of (by decide +kernel), by decide, by decide, by decide, listening_of (by decide +kernel), by decide⟩

theorem meets_ConfigurationWrites :
    (base.listening ∧ base.ctl.station = .detached ∧ member.listening ∧ member.ctl.station ≠ .detached)
      ∧ (∃ t, Sys2Proof.Spec.stationWrite (Sys2Proof.Spec.shifted base 3) (.setStationFoundingDropLimit [8]) 8 [] t)
      ∧ (∃ t, Sys2Proof.Spec.stationWrite (Sys2Proof.Spec.shifted base 3) (.setStationFoundingDropLimit [2]) 2 [] t)
      ∧ (∃ t, Sys2Proof.Spec.stationWrite (Sys2Proof.Spec.shifted base 3) (.setStationFoundingLossSeverity [0]) 0 [] t)
      ∧ (∃ t, Sys2Proof.Spec.stationWrite (Sys2Proof.Spec.shifted base 3) (.setStationDetachedLevel [2]) 2 [] t)
      ∧ (∃ t, Sys2Proof.Spec.sourceWrite (Sys2Proof.Spec.shifted base 4) (.setSourceClass 31 [4]) 4 [] t)
      ∧ (∃ t, Sys2Proof.Spec.sourceWrite (Sys2Proof.Spec.shifted base 4) (.setSourceThreshold 0 [255]) 255 [] t)
      ∧ ∃ t, Sys2Proof.Spec.sourceWrite (Sys2Proof.Spec.shifted base 4) (.setSourcePolarity 23 [1]) 1 [] t :=
  ⟨⟨listening_of (by decide +kernel), by decide, listening_of (by decide +kernel), by decide⟩,
    ⟨_, Or.inr (Or.inr (Or.inr (Or.inr (Or.inr (Or.inl ⟨rfl, by decide, by decide, rfl⟩)))))⟩,
    ⟨_, Or.inr (Or.inr (Or.inr (Or.inr (Or.inr (Or.inl ⟨rfl, by decide, by decide, rfl⟩)))))⟩,
    ⟨_, Or.inr (Or.inr (Or.inr (Or.inr (Or.inr (Or.inr ⟨none, rfl, by decide, rfl⟩)))))⟩,
    ⟨_, Or.inr (Or.inr (Or.inr (Or.inl ⟨.halt, rfl, by decide, rfl⟩)))⟩,
    ⟨_, Or.inl ⟨31, 31, by decide, Or.inl ⟨.critical, rfl, by decide, rfl⟩⟩⟩,
    ⟨_, Or.inl ⟨0, 0, by decide, Or.inr ⟨rfl, by decide, rfl⟩⟩⟩,
    ⟨_, Or.inr ⟨23, 23, by decide, Or.inr ⟨.activeHigh, rfl, by decide, rfl⟩⟩⟩⟩

theorem meets_BadArguments :
    base.listening ∧ (Instr.setStationFoundingDropLimit [9]).wf = true
      ∧ encodeTransaction (.setStationFoundingDropLimit [9]) = some [0x03, 0x05, 9]
      ∧ encodeTransaction (.setSourceMode 24 [0]) = some [0x04, 24, 0x01, 0]
      ∧ encodeTransaction (.raise [30, 0, 0, 0, 0]) = some [0x07, 30, 0, 0, 0, 0]
      ∧ encodeTransaction (.resolve [33]) = some [0x09, 33]
      ∧ encodeTransaction (.requestClear [0, 16, 0, 0, 0, 0]) = some [0x0A, 0, 16, 0, 0, 0, 0]
      ∧ encodeTransaction (.readLocal [8]) = some [0x0B, 8] ∧ encodeTransaction (.readEntry [32]) = some [0x0F, 32]
      ∧ encodeTransaction (.commandCodeNamesNoCommand [0x12]) = some [0x12] :=
  ⟨listening_of (by decide +kernel), by decide, by decide, by decide, by decide, by decide, by decide, by decide, by decide,
    by decide⟩

theorem meets_SourceCommands :
    base.listening ∧ (24 : Byte).toNat = (24 : Fin 32).val ∧ (29 : Byte).toNat = (29 : Fin 32).val
      ∧ (base.monitor.line 5).mode = .edge
      ∧ fin5.listening ∧ (fin5.monitor.line 5).mode = .level
      ∧ fin5.monitor.fin.getLsbD 5 = (fin5.monitor.line 5).polarity.activeLevel :=
  ⟨listening_of (by decide +kernel), by decide, by decide, by decide +kernel, listening_of (by decide +kernel), by decide +kernel,
    by decide +kernel⟩

/-- A MEMBER with a full queue. -/
def crowded : State := member.withQueue fullQueue

theorem meets_JoinAndLeaveCommands :
    base.listening ∧ base.ctl.station = .detached ∧ member.listening ∧ member.ctl.station = .member
      ∧ busy.listening ∧ (∃ i ∈ busy.queue.items, i.notice = .leave)
      ∧ member.queue.count < 8 ∧ (∀ i ∈ member.queue.items, i.notice ≠ .leave)
      ∧ crowded.listening ∧ 8 ≤ crowded.queue.count ∧ ∀ i ∈ crowded.queue.items, i.notice ≠ .leave :=
  ⟨listening_of (by decide +kernel), by decide, listening_of (by decide +kernel), by decide, listening_of (by decide +kernel),
    by decide +kernel, by decide, by decide +kernel, listening_of (by decide +kernel), by decide, by decide +kernel⟩

/-- A full queue that ends in a notice. -/
def fullUpTo (last : Item) : State :=
  member.withQueue { fullQueue with waiting := fullQueue.waiting.take 6 ++ [last] }

/-- A full queue of CLEAR notices. -/
def fullOfClears : State :=
  member.withQueue { fullQueue with waiting := List.replicate 7 ⟨.clear .first 0 880, false, 6⟩ }

theorem meets_ResolveAndRequestClearCommands :
    (fin5.listening ∧ ((fin5.withMonitor (fin5.monitor.setSource 5 ⟨.major, 16, true, 0, false⟩)).monitor.source 5).latched = true
        ∧ (32 : Byte) ≤ 32 ∧ ∀ n : Fin 32, (32 : Byte).toNat = n.val → (member.monitor.source n).latched = false)
      ∧ (crowded.listening ∧ (∃ i ∈ crowded.queue.waiting, i.notice = .resolve ((3 : Byte).setWidth 6))
        ∧ (∀ i ∈ crowded.queue.waiting, i.notice ≠ .resolve ((4 : Byte).setWidth 6))
        ∧ (∀ i ∈ crowded.queue.waiting, i.notice ≠ .leave) ∧ 8 ≤ crowded.queue.count)
      ∧ ((fullUpTo ⟨.leave, false, 9⟩).listening ∧ 8 ≤ (fullUpTo ⟨.leave, false, 9⟩).queue.count
        ∧ ∀ x ∈ fullQueue.waiting.take 6, Sys2Proof.Spec.before x ⟨.leave, false, 9⟩)
      ∧ (fullOfClears.listening ∧ (∀ x ∈ fullOfClears.queue.waiting, x.notice.urgency = 1) ∧ 8 ≤ fullOfClears.queue.count)
      ∧ ((fullUpTo ⟨.fault (report 3 .minor), true, 9⟩).listening
        ∧ ∀ x ∈ fullQueue.waiting.take 6, Sys2Proof.Spec.before x ⟨.fault (report 3 .minor), true, 9⟩)
      ∧ (member.listening ∧ member.ctl.station = .member ∧ member.queue.count < 8) :=
  ⟨⟨listening_of (by decide +kernel), by decide +kernel, by decide, by decide +kernel⟩,
    ⟨listening_of (by decide +kernel), by decide +kernel, by decide +kernel, by decide +kernel, by decide⟩,
    ⟨listening_of (by decide +kernel), by decide, by unfold Sys2Proof.Spec.before; decide +kernel⟩,
    ⟨listening_of (by decide +kernel), by decide +kernel, by decide⟩,
    ⟨listening_of (by decide +kernel), by unfold Sys2Proof.Spec.before; decide +kernel⟩,
    listening_of (by decide +kernel), by decide, by decide⟩

theorem meets_LocalLogCommands :
    busy.listening ∧ busy.log.first = some ⟨1, 31, .minor, 1, 0x15, .queued⟩ ∧ busy.log.next = []
      ∧ base.listening ∧ base.log.first = none ∧ (7 : Byte) ≤ 0x07
      ∧ ∃ x more, (base.withLog ⟨some (recordOf 1 4 .queued), [recordOf 2 5 .unsent], 0, 2⟩).log.next = x :: more :=
  ⟨listening_of (by decide +kernel), by decide, by decide, listening_of (by decide +kernel), by decide, by decide, ⟨_, _, rfl⟩⟩


end Sys2Proof.Tests
end

