-- ==== Sys2Proof/Proofs/FaultTable.lean ====
section
/-! PROOFS. Saturating counts, the derived chassis level and an arrival at the fault table (chapters 1 and 2), and what
a settled FAULT does to the copy (R8, R9). -/

namespace Sys2Proof.Machine

/-! ### Saturating counts (0.6 Conventions) -/

theorem satAdd_toNat {w : Nat} (a b : BitVec w) : (satAdd a b).toNat = min (2 ^ w - 1) (a.toNat + b.toNat) := by
  unfold satAdd
  split
  · next hover =>
    rw [BitVec.toNat_allOnes]
    omega
  · next hfits =>
    rw [BitVec.toNat_add_of_lt (by omega)]
    omega

theorem satInc_toNat {w : Nat} (a : BitVec w) : (satInc a).toNat = min (2 ^ w - 1) (a.toNat + 1) := by
  unfold satInc
  rw [satAdd_toNat]
  cases w with
  | zero => simp
  | succ n => rw [show (1 : BitVec (n + 1)).toNat = 1 from BitVec.toNat_one n.succ_pos]

/-! ### The derived chassis level (R26) -/

theorem Level.rank_le_higher (a b : Level) : a.rank ≤ (a.higher b).rank ∧ b.rank ≤ (a.higher b).rank := by
  unfold Level.higher
  split <;> omega

theorem Level.higher_eq (a b : Level) : a.higher b = a ∨ a.higher b = b := by
  unfold Level.higher
  split
  · exact .inr rfl
  · exact .inl rfl

theorem Severity.level_rank_pos (sv : Severity) : 0 < sv.level.rank := by cases sv <;> decide

/-- The highest of a level to start from and the levels of the entries of a table. -/
def levelFrom (start : Level) (table : List Entry) : Level :=
  table.foldl (fun l e => l.higher e.severity.level) start

theorem tableLevel_eq_levelFrom (table : List Entry) : tableLevel table = levelFrom .quiet table := rfl

theorem levelFrom_cons (start : Level) (x : Entry) (rest : List Entry) :
    levelFrom start (x :: rest) = levelFrom (start.higher x.severity.level) rest := rfl

theorem rank_le_levelFrom (start : Level) (table : List Entry) :
    start.rank ≤ (levelFrom start table).rank ∧ ∀ e ∈ table, e.severity.level.rank ≤ (levelFrom start table).rank := by
  induction table generalizing start with
  | nil => exact ⟨le_rfl, by simp⟩
  | cons x rest ih =>
    obtain ⟨hhigher, hrest⟩ := ih (start.higher x.severity.level)
    obtain ⟨hstart, hx⟩ := start.rank_le_higher x.severity.level
    rw [levelFrom_cons]
    exact ⟨hstart.trans hhigher, List.forall_mem_cons.2 ⟨hx.trans hhigher, hrest⟩⟩

theorem levelFrom_attained (start : Level) (table : List Entry) :
    levelFrom start table = start ∨ ∃ e ∈ table, levelFrom start table = e.severity.level := by
  induction table generalizing start with
  | nil => exact .inl rfl
  | cons x rest ih =>
    rw [levelFrom_cons]
    rcases ih (start.higher x.severity.level) with hhigher | ⟨e, he, hrest⟩
    · rw [hhigher]
      exact (start.higher_eq x.severity.level).imp_right (fun h => ⟨x, List.mem_cons_self, h⟩)
    · exact .inr ⟨e, List.mem_cons_of_mem x he, hrest⟩

/-- R26: the derived level is the level of latch and table. -/
theorem deriveLevel_levelOf (halt : Bool) (table : List Entry) :
    Sys2Proof.Spec.levelOf halt table (deriveLevel halt table) := by
  cases halt with
  | true => exact ⟨fun _ => rfl, by simp, by simp⟩
  | false =>
    have hbound : ∀ e ∈ table, e.severity.level.rank ≤ (tableLevel table).rank := (rank_le_levelFrom .quiet table).2
    refine ⟨by simp, fun _ hempty => by rw [hempty]; rfl, fun _ => ⟨hbound, fun hne =>
      (levelFrom_attained .quiet table).resolve_left (fun hquiet => ?_)⟩⟩
    obtain ⟨e, he⟩ := List.exists_mem_of_ne_nil table hne
    have hle := hbound e he
    rw [tableLevel_eq_levelFrom, hquiet] at hle
    exact absurd hle (Nat.not_le.2 e.severity.level_rank_pos)

/-! ### An arrival at the fault table (R8, R9) -/

theorem same_eq_false_iff (e x : Entry) : e.same x = false ↔ x.apart e := by
  rw [← Bool.not_eq_true, same_iff]

/-- Placing an arrival changes table and dropped count alone. -/
theorem place_frame (c : Chassis) (e : Entry) :
    c.place e = { c with table := (c.place e).table, dropped := (c.place e).dropped } := by
  unfold Chassis.place
  split
  · rfl
  · split
    · rfl
    · split <;> rfl

/-- R8: an arrival for the one entry of its origin and source coalesces into it, in its position. -/
theorem place_of_held {c : Chassis} {e x : Entry} {pre post : List Entry} (ht : c.table = pre ++ x :: post)
    (hx : e.same x = true) (hn : ∀ y ∈ pre ++ post, y.apart e) :
    c.place e = { c with table := pre ++ x.coalesce e :: post } := by
  have hkeep : ∀ l : List Entry, (∀ y ∈ l, y.apart e) →
      l.map (fun y => if e.same y then y.coalesce e else y) = l := fun l hl => by
    rw [List.map_congr_left (g := id) (fun y hy => by rw [(same_eq_false_iff e y).2 (hl y hy)]; rfl), List.map_id]
  have hany : c.table.any e.same = true := List.any_eq_true.2 ⟨x, by simp [ht], hx⟩
  obtain ⟨hpre, hpost⟩ := List.forall_mem_append.1 hn
  unfold Chassis.place
  rw [if_pos hany]
  simp only [ht, List.map_append, List.map_cons, hkeep pre hpre, hkeep post hpost, hx, if_true]

/-- R9: an arrival without an entry of its origin and source enters a table that has room at the end. -/
theorem place_of_room {c : Chassis} {e : Entry} (hn : ∀ y ∈ c.table, y.apart e) (hroom : c.table.length < 32) :
    c.place e = { c with table := c.table ++ [e] } := by
  have hany : c.table.any e.same = false :=
    List.any_eq_false.2 (fun y hy => by simp [(same_eq_false_iff e y).2 (hn y hy)])
  simp [Chassis.place, hany, tableCapacity, hroom]

/-- R21, R22: what the offer of an arrival does to first record and since-first count. -/
theorem offerFirst_offered (c : Chassis) (e : Entry) : Sys2Proof.Spec.offered c (c.offerFirst e) e := by
  unfold Chassis.offerFirst
  split
  · next hnone => exact ⟨fun _ => ⟨rfl, rfl⟩, fun f hf => absurd (hnone.symm.trans hf) (by simp)⟩
  · next f hsome =>
    exact ⟨fun hnone => absurd (hsome.symm.trans hnone) (by simp), fun g hg => ⟨hg, satInc_toNat _⟩⟩

/-- The latch test of R24 where one entry alone has the arrival's origin and source. -/
theorem any_critical_of_single {e y : Entry} {pre post : List Entry} (hy : e.same y = true)
    (hn : ∀ z ∈ pre ++ post, z.apart e) :
    (pre ++ y :: post).any (fun x => e.same x && decide (x.severity = .critical))
      = decide (y.severity = .critical) := by
  have hother : ∀ l : List Entry, (∀ z ∈ l, z.apart e) →
      l.any (fun x => e.same x && decide (x.severity = .critical)) = false := fun l hl =>
    List.any_eq_false.2 (fun z hz => by simp [(same_eq_false_iff e z).2 (hl z hz)])
  obtain ⟨hpre, hpost⟩ := List.forall_mem_append.1 hn
  simp only [List.any_append, List.any_cons, hother pre hpre, hother post hpost, hy, Bool.true_and, Bool.or_false,
    Bool.false_or]

/-- What an arrival changes, field by field; the rest of the copy is unchanged. -/
theorem arrive_frame (c : Chassis) (e : Entry) :
    c.arrive e = { c with
      table := (c.place e).table
      dropped := (c.place e).dropped
      first := (c.offerFirst e).first
      sinceFirst := (c.offerFirst e).sinceFirst
      halt := c.halt || (c.place e).table.any (fun x => e.same x && decide (x.severity = .critical)) } := by
  unfold Chassis.arrive Chassis.latchFor Chassis.offerFirst
  rw [place_frame]
  cases c.first <;> rfl

/-- R24: the halt latch after an arrival that has placed one entry of its origin and source. -/
theorem arrive_halt {c : Chassis} {e y : Entry} {pre post : List Entry} (ht : (c.place e).table = pre ++ y :: post)
    (hy : e.same y = true) (hn : ∀ z ∈ pre ++ post, z.apart e) :
    (c.arrive e).halt = (c.halt || decide (y.severity = .critical)) := by
  rw [arrive_frame, ← any_critical_of_single hy hn, ← ht]

theorem arrive_table (c : Chassis) (e : Entry) : (c.arrive e).table = (c.place e).table := by rw [arrive_frame]

theorem arrive_dropped (c : Chassis) (e : Entry) : (c.arrive e).dropped = (c.place e).dropped := by rw [arrive_frame]

theorem arrive_offered (c : Chassis) (e : Entry) : Sys2Proof.Spec.offered c (c.arrive e) e := by
  rw [arrive_frame]
  exact offerFirst_offered c e

/-! ### A settled FAULT at the copy -/

/-- A settled FAULT is the arrival of its entry, with settle number (R4) and level (R26). -/
theorem apply_fault (c : Chassis) (sender : Addr) (r : Report) :
    c.apply sender (.notice (.fault r)) =
      { c.arrive (c.faultEntry sender r) with
        settle := c.settle + 1
        level := deriveLevel (c.arrive (c.faultEntry sender r)).halt (c.arrive (c.faultEntry sender r)).table } := rfl

theorem apply_fault_offered (c : Chassis) (sender : Addr) (r : Report) :
    Sys2Proof.Spec.offered c (c.apply sender (.notice (.fault r))) (c.faultEntry sender r) :=
  arrive_offered c (c.faultEntry sender r)

theorem apply_fault_faultFrame (c : Chassis) (sender : Addr) (r : Report) :
    Sys2Proof.Spec.faultFrame c (c.apply sender (.notice (.fault r))) := by
  rw [apply_fault, arrive_frame]
  exact ⟨rfl, rfl, rfl, rfl, rfl, deriveLevel_levelOf _ _⟩

/-- Table, dropped count and halt latch after a settled FAULT that has left one entry of its sender and source. -/
theorem apply_fault_of_place {c : Chassis} {sender : Addr} {r : Report} {y : Entry} {pre post : List Entry}
    (hp : c.place (c.faultEntry sender r) = { c with table := pre ++ y :: post })
    (hy : (c.faultEntry sender r).same y = true) (hn : ∀ z ∈ pre ++ post, z.apart (c.faultEntry sender r)) :
    (c.apply sender (.notice (.fault r))).table = pre ++ y :: post
      ∧ (c.apply sender (.notice (.fault r))).dropped = c.dropped
      ∧ (c.apply sender (.notice (.fault r))).halt = (c.halt || decide (y.severity = .critical)) := by
  have ht : (c.place (c.faultEntry sender r)).table = pre ++ y :: post := by rw [hp]
  rw [apply_fault]
  exact ⟨(arrive_table _ _).trans ht, (arrive_dropped _ _).trans (by rw [hp]), arrive_halt ht hy hn⟩

/-- Settles O8: the two ways to find a place (R8, R9) differ in the table alone; the rest is common to every arrival. -/
theorem faultCoalescesOrEntersTheTable : Obligations.FaultCoalescesOrEntersTheTable := by
  intro c sender r
  have hoffered := apply_fault_offered c sender r
  have hframe := apply_fault_faultFrame c sender r
  refine ⟨fun pre post x ht horigin hsource hn => ?_, fun hn hroom => ?_⟩
  · have hx : (c.faultEntry sender r).same x = true := (same_iff _ _).2 ⟨horigin, hsource⟩
    obtain ⟨htable, hdropped, hhalt⟩ := apply_fault_of_place
      (y := x.coalesce (c.faultEntry sender r)) (place_of_held ht hx hn) hx hn
    exact ⟨x.coalesce (c.faultEntry sender r), htable, rfl, rfl, rfl, rfl,
      satAdd_toNat x.occurrences r.occurrences, rfl, rfl, hdropped, hhalt, hoffered, hframe⟩
  · obtain ⟨htable, hdropped, hhalt⟩ := apply_fault_of_place (place_of_room hn hroom)
      ((same_iff _ _).2 ⟨rfl, rfl⟩) (by rwa [List.append_nil])
    exact ⟨htable, hdropped, hhalt, hoffered, hframe⟩

end Sys2Proof.Machine
end

section
/-! PROOFS. A settled CLEAR at the chassis copy (R28), with the outcomes and changes of scope HALT (R30) and of scope
ORIGIN (R31). -/

namespace Sys2Proof.Machine

/-! ### A settled CLEAR at the copy (R28) -/

/-- A settled CLEAR makes the changes of its outcome, with settle number (R4) and level (R26). -/
theorem apply_clear (c : Chassis) (sender : Addr) (scope : Scope) (o : Addr) (reference : Word) :
    c.apply sender (.notice (.clear scope o reference)) =
      { c.applyClear sender scope o reference with
        settle := c.settle + 1
        level := deriveLevel (c.applyClear sender scope o reference).halt
          (c.applyClear sender scope o reference).table } := rfl

theorem apply_clear_of_done {c : Chassis} {sender : Addr} {scope : Scope} {o : Addr} {reference : Word}
    (h : c.clearOutcome sender scope o reference = .done) :
    c.apply sender (.notice (.clear scope o reference)) =
      { c.clearDone scope o with
        settle := c.settle + 1
        level := deriveLevel (c.clearDone scope o).halt (c.clearDone scope o).table } := by
  simp only [apply_clear, Chassis.applyClear, h]

theorem apply_clear_of_refused {c : Chassis} {sender : Addr} {scope : Scope} {o : Addr} {reference : Word}
    (h : c.clearOutcome sender scope o reference = .refused) :
    c.apply sender (.notice (.clear scope o reference)) =
      { c with settle := c.settle + 1, level := deriveLevel c.halt c.table } := by
  simp only [apply_clear, Chassis.applyClear, h]

/-- R26: the level after a settled CLEAR is the level of the latch and table it leaves. -/
theorem apply_clear_levelOf (c : Chassis) (sender : Addr) (scope : Scope) (o : Addr) (reference : Word) :
    Sys2Proof.Spec.levelOf (c.apply sender (.notice (.clear scope o reference))).halt
      (c.apply sender (.notice (.clear scope o reference))).table
      (c.apply sender (.notice (.clear scope o reference))).level := by
  rw [apply_level _ _ _ rfl]
  exact deriveLevel_levelOf _ _

/-! ### Scope HALT (R30) -/

theorem hasCritical_iff (c : Chassis) : c.hasCritical = true ↔ ∃ x ∈ c.table, x.severity = .critical := by
  simp [Chassis.hasCritical]

theorem clearOutcome_halt_of_critical {c : Chassis} (sender o : Addr) (reference : Word)
    (h : ∃ x ∈ c.table, x.severity = .critical) : c.clearOutcome sender .halt o reference = .refused :=
  if_pos ((hasCritical_iff c).2 h)

theorem clearOutcome_halt_of_no_critical {c : Chassis} (sender o : Addr) (reference : Word)
    (h : ∀ x ∈ c.table, x.severity ≠ .critical) : c.clearOutcome sender .halt o reference = .done :=
  if_neg (fun hcrit => let ⟨x, hx, hsev⟩ := (hasCritical_iff c).1 hcrit; h x hx hsev)

/-- A settled CLEAR of scope HALT without a CRITICAL entry: the latch alone is cleared. -/
theorem apply_clear_halt_of_no_critical {c : Chassis} (sender o : Addr) (reference : Word)
    (h : ∀ x ∈ c.table, x.severity ≠ .critical) :
    c.apply sender (.notice (.clear .halt o reference)) =
      { c with halt := false, settle := c.settle + 1, level := deriveLevel false c.table } :=
  apply_clear_of_done (clearOutcome_halt_of_no_critical sender o reference h)

/-- A settled CLEAR of scope HALT, done or refused, touches latch, settle number and level alone. -/
theorem apply_clear_halt_frame (c : Chassis) (sender o : Addr) (reference : Word) :
    (c.apply sender (.notice (.clear .halt o reference))).first = c.first
      ∧ (c.apply sender (.notice (.clear .halt o reference))).sinceFirst = c.sinceFirst
      ∧ (c.apply sender (.notice (.clear .halt o reference))).table = c.table := by
  by_cases hcrit : ∃ x ∈ c.table, x.severity = .critical
  · rw [apply_clear_of_refused (clearOutcome_halt_of_critical sender o reference hcrit)]
    exact ⟨rfl, rfl, rfl⟩
  · rw [apply_clear_halt_of_no_critical sender o reference (fun x hx hsev => hcrit ⟨x, hx, hsev⟩)]
    exact ⟨rfl, rfl, rfl⟩

/-- Settles O12: the outcome splits on a CRITICAL entry; first record, count and table are common to both outcomes. -/
theorem clearOfTheHaltLatch : Obligations.ClearOfTheHaltLatch := by
  intro c sender o reference
  refine ⟨fun hcrit => ?refused, fun hnone => ?done, fun hnone hclear hlevel => ?already_clear,
    apply_clear_halt_frame c sender o reference⟩
  case refused =>
    have hout := clearOutcome_halt_of_critical sender o reference hcrit
    exact ⟨hout, by rw [apply_clear_of_refused hout]⟩
  case done =>
    refine ⟨clearOutcome_halt_of_no_critical sender o reference hnone, ?_⟩
    rw [apply_clear_halt_of_no_critical sender o reference hnone]
    exact ⟨rfl, deriveLevel_levelOf false c.table⟩
  case already_clear =>
    rw [apply_clear_halt_of_no_critical sender o reference hnone, ← hclear, ← hlevel]

/-! ### Scope ORIGIN (R31) -/

theorem clearOutcome_origin_of_member_or_sender {c : Chassis} {sender n : Addr} (reference : Word)
    (h : c.record n ≠ none ∨ n = sender) : c.clearOutcome sender .origin n reference = .refused :=
  if_pos (by simpa [Option.isSome_iff_ne_none] using h)

theorem clearOutcome_origin_of_outsider {c : Chassis} {sender n : Addr} (reference : Word)
    (hrecord : c.record n = none) (hsender : n ≠ sender) : c.clearOutcome sender .origin n reference = .done :=
  if_neg (by simp [hrecord, hsender])

/-- A settled CLEAR of scope ORIGIN, done or refused, leaves latch, first record and since-first count. -/
theorem apply_clear_origin_frame (c : Chassis) (sender n : Addr) (reference : Word) :
    (c.apply sender (.notice (.clear .origin n reference))).halt = c.halt
      ∧ (c.apply sender (.notice (.clear .origin n reference))).first = c.first
      ∧ (c.apply sender (.notice (.clear .origin n reference))).sinceFirst = c.sinceFirst := by
  by_cases hheld : c.record n ≠ none ∨ n = sender
  · rw [apply_clear_of_refused (clearOutcome_origin_of_member_or_sender reference hheld)]
    exact ⟨rfl, rfl, rfl⟩
  · obtain ⟨hrecord, hsender⟩ := not_or.1 hheld
    rw [apply_clear_of_done (clearOutcome_origin_of_outsider reference (not_not.1 hrecord) hsender)]
    exact ⟨rfl, rfl, rfl⟩

/-- Settles O13: the outcome splits on the named station's record and the requester; a latched chassis stays at HALT,
since the latch is kept and the level follows it (R26). -/
theorem clearOfAnOrigin : Obligations.ClearOfAnOrigin := by
  intro c sender n reference
  obtain ⟨hhalt, hfirst, hcount⟩ := apply_clear_origin_frame c sender n reference
  refine ⟨fun hheld => ?refused, fun hrecord hsender => ?done, hhalt, fun hlatched => ?latched, hfirst, hcount⟩
  case refused =>
    have hout := clearOutcome_origin_of_member_or_sender reference hheld
    exact ⟨hout, by rw [apply_clear_of_refused hout]⟩
  case done =>
    have hout := clearOutcome_origin_of_outsider reference hrecord hsender
    exact ⟨hout, by rw [apply_clear_of_done hout]; rfl⟩
  case latched =>
    obtain ⟨hlevel, -, -⟩ := apply_clear_levelOf c sender .origin n reference
    exact hlevel (hhalt.trans hlatched)

end Sys2Proof.Machine
end

section
/-! PROOFS. The Local Fault Log at the two resets (R148, R149), and the first record that a raised fault creates in an
empty log (R137, R139). -/

namespace Sys2Proof.Machine

/-! ### Power-on (R149) -/

/-- R139: with no first record, a raised fault creates it, and takes the next number (R137). -/
theorem take_log_of_first_none {l : Log} (source : BitVec 5) (severity : Severity) (detail : Word)
    (h : l.first = none) :
    (l.take source severity detail).log =
      { l with first := some (l.newRecord source severity detail), counter := l.nextNumber } := by
  simp only [Log.take, h]

/-- R137: the first number after the counter stood at 0. -/
theorem nextNumber_of_counter_zero {l : Log} (h : l.counter = 0) : l.nextNumber = 1 := by
  rw [Log.nextNumber, h]
  decide

/-- POWER_ON answers a station whose log is at its power-on value. -/
theorem exec_powerOn_log (s : State) : ∃ t, exec .powerOn s = .next t ∧ t.log = Log.powerOn :=
  ⟨(State.reset.withFree s.freeCount).withPending s.pending, rfl, by simp [State.reset]⟩

/-! ### Board reset (R148) -/

/-- R148: a board reset changes the state of a record alone. -/
theorem boardReset_eq_keptState (r : Record) :
    r.boardReset = { r with state := Sys2Proof.Spec.keptState r.state } := by
  obtain ⟨number, source, severity, occurrences, detail, state⟩ := r
  cases state <;> rfl

/-- An assertion of RESET with nothing due is the board reset of the station, its port transaction cut. -/
theorem exec_resetAsserted_of_nothingDue {s : State} (moment : Moment) (hhigh : s.power.resetLow = false)
    (hdue : s.nothingDue) :
    exec (.resetAsserted moment) s = .next ((s.cutPort moment.clocked).boardReset moment.position) := by
  show execResetAsserted moment s = _
  rw [execResetAsserted, if_neg (by simp [hhigh]), settleDue_of_nothingDue hdue]

/-- The assertion of RESET gives the log its board reset, and nothing else reaches the log. -/
theorem boardReset_cutPort_log (s : State) (clocked : Option Nat) (position : Nat) :
    ((s.cutPort clocked).boardReset position).log = s.log.boardReset := by
  show (s.cutPort clocked).log.boardReset = s.log.boardReset
  rw [State.cutPort_log]

/-- Settles O17: after POWER_ON the log is empty with its counter at 0, so the next fault writes record 1; at RESET each
record takes its board reset in its place. -/
theorem localLogAtTheResets : Obligations.LocalLogAtTheResets := by
  intro s
  refine ⟨?power_on, fun moment hhigh hdue => ?board_reset⟩
  case power_on =>
    obtain ⟨t, hexec, hlog⟩ := exec_powerOn_log s
    have hfirst : t.log.first = none := by rw [hlog]; rfl
    have hcounter : t.log.counter = 0 := by rw [hlog]; rfl
    refine ⟨t, hexec, hfirst, by rw [hlog]; rfl, by rw [hlog]; rfl, hcounter, fun source severity detail => ?_⟩
    exact ⟨t.log.newRecord source severity detail, by rw [take_log_of_first_none source severity detail hfirst],
      nextNumber_of_counter_zero hcounter⟩
  case board_reset =>
    have hrecord : Record.boardReset = fun r => { r with state := Sys2Proof.Spec.keptState r.state } :=
      funext boardReset_eq_keptState
    refine ⟨_, exec_resetAsserted_of_nothingDue moment hhigh hdue, ?_⟩
    rw [boardReset_cutPort_log, Log.boardReset, hrecord]
    exact ⟨rfl, rfl, rfl, rfl⟩

end Sys2Proof.Machine
end

section
/-! PROOFS. What every command keeps: one pass over the rows of the opcode table, for any condition that the shared operations
keep (O2, O3 and O5 rest on it). -/

namespace Sys2Proof.Machine

/-! ### Conditions that the shared operations keep -/

/-- R169: the join wait and the founding drop limit are in the ranges of Table 10-2. -/
def Items.inRange (i : Items) : Prop := 1 ≤ i.joinWait ∧ 2 ≤ i.foundingDropLimit ∧ i.foundingDropLimit ≤ 8

/-- A condition on states that each operation out of which the rows are built keeps. -/
structure Kept (P : State → Prop) : Prop where
  ofLocal {s t : State} : Local s t → P s → P t
  reset (n : Nat) (l : List Instr) : P ((State.reset.withFree n).withPending l)
  withPending {s : State} (l : List Instr) : P s → P (s.withPending l)
  withPower {s : State} (x : Power) : P s → P (s.withPower x)
  withStraps {s : State} (x : Straps) : P s → P (s.withStraps x)
  withEngine {s : State} (x : Engine) : P s → P (s.withEngine x)
  withPort {s : State} (x : Port) : P s → P (s.withPort x)
  withFree {s : State} (n : Nat) : P s → P (s.withFree n)
  withItems {s : State} (i : Items) : P s → (s.items.inRange → i.inRange) → P (s.withItems i)
  setPolicy {s : State} (i : Items) (p : Policy) : P s → s.ctl.station = .detached → (s.items.inRange → i.inRange) →
    P ((s.withItems i).withOutputs { s.outputs with policy := p }).redrive
  withAlerts {s : State} (pending mask : Byte) : P s → P (s.withAlerts (Alerts.of pending mask))
  boardReset {s : State} (position : Nat) : P s → P (s.boardReset position)
  afterStraps {s : State} : P s → P s.afterStraps
  fireBreaks {s : State} : P s → P s.fireBreaks
  fireRetry {s : State} : P s → P s.fireRetry
  fireRosterRetry {s : State} : P s → P s.fireRosterRetry
  fireAdriftCount {s : State} : P s → P s.fireAdriftCount
  askRoster {s : State} : P s → P s.askRoster
  hearStart {s : State} : P s → P s.hearStart
  beginOwn {s : State} (path : Path) (f : Frame) : P s → P (s.beginOwn path f)
  passOn {s : State} (f : Frame) : P s → P (s.passOn f)
  reportBroken {s : State} : P s → P s.reportBroken
  complete {s : State} (t : Tail) : P s → P (s.complete t)
  toJoining {s : State} : P s → s.ctl.station = .detached → P s.toJoining
  retryJoin {s : State} : P s → P s.retryJoin
  found {s : State} : P s → P s.found
  toAdrift {s : State} (code : Word) : P s → P (s.toAdrift code)
  exitAdrift {s : State} : P s → P s.exitAdrift

/-- A row answers a next state, in which the condition holds if it held before. -/
def Steps (P : State → Prop) (s : State) (o : Host.Outcome State Fault Refusal) : Prop :=
  ∃ t, o = .next t ∧ (P s → P t)

theorem steps_next {P : State → Prop} {s t : State} (h : P s → P t) : Steps P s (.next t) := ⟨t, rfl, h⟩

theorem steps_ite {P : State → Prop} {s : State} {c : Prop} [Decidable c] {a b : Host.Outcome State Fault Refusal}
    (ha : c → Steps P s a) (hb : Steps P s b) : Steps P s (if c then a else b) := by
  split
  · next hc => exact ha hc
  · exact hb

variable {P : State → Prop}

theorem Kept.settleDue (k : Kept P) {s : State} (h : P s) : P s.settleDue :=
  k.fireAdriftCount (k.fireRosterRetry (k.fireRetry (k.fireBreaks (k.ofLocal (fireAging_local s) h))))

theorem Kept.cutPort (k : Kept P) {s : State} (clocked : Option Nat) (h : P s) : P (s.cutPort clocked) := by
  obtain ⟨x, n, he⟩ := State.cutPort_eq s clocked
  rw [he]
  exact k.withFree n (k.withPort _ h)

theorem Kept.shifts (k : Kept P) {s : State} (n : Nat) (h : P s) : P (s.shifts n) := k.withFree _ (k.withPort _ h)

/-! ### Commands on the port -/

/-- The effect of a command keeps the condition. -/
def Reply.Keeps (P : State → Prop) (act : State → Reply) : Prop := ∀ s, P s → P (act s).state

theorem keeps_refuse (P : State → Prop) (status : Status) : Reply.Keeps P (refuse status) := fun _ h => h

theorem keeps_answer (P : State → Prop) (data : State → List Byte) : Reply.Keeps P (fun s => answer (data s) s) :=
  fun _ h => h

theorem keeps_readCopy (P : State → Prop) (data : State → List Byte) : Reply.Keeps P (readCopy data) := fun s h => by
  rwa [readCopy_state]

theorem Kept.transact (k : Kept P) {act : State → Reply} (ha : Reply.Keeps P act) (code : Byte) (n : Nat) {s : State}
    (h : P s) : P (s.transact code n act) := by
  have hs := k.shifts n (k.settleDue h)
  unfold State.transact
  dsimp only
  split
  · exact k.withPort _ (ha _ hs)
  · exact hs

theorem keeps_withByte {α : Type} {rest : List Byte} {range : Byte → Option α} {act : α → State → Reply}
    (ha : ∀ b v, range b = some v → Reply.Keeps P (act v)) : Reply.Keeps P (withByte rest range act) := fun s h => by
  unfold withByte
  split
  · exact h
  · split
    · next v hv => exact ha _ v hv s h
    · exact h

/-- A configuration write keeps the condition at a DETACHED station. -/
def Writes (P : State → Prop) (write : State → State) : Prop := ∀ s, P s → s.ctl.station = .detached → P (write s)

theorem keeps_locked {write : State → State} (hw : Writes P write) : Reply.Keeps P (locked write) := fun s h => by
  unfold locked
  split
  · next hd => exact hw s h hd
  · exact h

theorem keeps_setStation {α : Type} {rest : List Byte} {range : Byte → Option α} {write : α → State → State}
    (hw : ∀ b v, range b = some v → Writes P (write v)) : Reply.Keeps P (setStation rest range write) :=
  keeps_withByte (fun b v hv => keeps_locked (hw b v hv))

theorem keeps_setSource {α : Type} {source : Byte} {rest : List Byte} {range : Byte → Option α}
    {write : Fin 32 → α → State → State} (hw : ∀ n v, Writes P (write n v)) :
    Reply.Keeps P (setSource source rest range write) := fun s h => by
  unfold setSource
  split
  · next n _ => exact keeps_withByte (fun _ v _ => keeps_locked (hw n v)) s h
  · exact h

theorem keeps_setLineItem {α : Type} {source : Byte} {rest : List Byte} {range : Byte → Option α}
    {write : Fin 24 → α → State → State} (hw : ∀ n v, Writes P (write n v)) :
    Reply.Keeps P (setLineItem source rest range write) := fun s h => by
  unfold setLineItem
  split
  · next n _ => exact keeps_withByte (fun _ v _ => keeps_locked (hw n v)) s h
  · exact h

theorem Kept.offerNotice (k : Kept P) {a : Answer} {s : State} (ha : s.queue.ok → a.queue.ok) (h : P s) :
    P (offerNotice a s).state := by
  unfold Machine.offerNotice
  split
  · exact k.ofLocal (answered_local a s ha) h
  · exact h

theorem Queue.ok_offerRequested (q : Queue) (scope : Scope) (o : Addr) (w : Word) (h : q.ok) :
    (q.offerRequested scope o w).queue.ok := by
  cases scope <;> exact q.ok_offerClear _ _ _ h

/-! ### Values in range (Table 11-6) -/

theorem within_eq_some {low high b v : Byte} (h : within low high b = some v) : v = b ∧ low ≤ b ∧ b ≤ high := by
  unfold within at h
  split at h
  · next hb => exact ⟨(Option.some.inj h).symm, hb⟩
  · cases h

theorem dropLimit_inRange {b v : Byte} (h : within 2 8 b = some v) : 2 ≤ v.setWidth 4 ∧ v.setWidth 4 ≤ 8#4 := by
  obtain ⟨rfl, hlow, hhigh⟩ := within_eq_some h
  bv_omega

theorem joinWait_inRange {b v : Byte} (h : within 1 255 b = some v) : 1 ≤ v := by
  obtain ⟨rfl, hlow, -⟩ := within_eq_some h
  exact hlow

/-! ### Every row -/

/-- Every row of the table answers a next state, and keeps what the shared operations keep. -/
theorem Kept.exec (k : Kept P) (i : Instr) (s : State) : Steps P s (exec i s) := by
  have due : P s → P s.settleDue := k.settleDue
  have idle : Steps P s (.next s.settleDue) := steps_next due
  have port {act : State → Reply} (ha : Reply.Keeps P act) (code : Byte) (n : Nat) :
      Steps P s (.next (s.transact code n act)) := steps_next (k.transact ha code n)
  cases i with
  | powerOn => exact steps_next fun _ => k.reset _ _
  | endOfPowerOn addr rate autojoin pins =>
    have ht (h : P s) := k.withStraps ⟨addr, rate, autojoin⟩
      (k.withPower { s.power with ended := true } (k.cutPort pins.clocked h))
    exact steps_ite (fun _ => steps_next id) (steps_ite (fun _ => steps_next fun h => k.ofLocal (Local.ofMonitor _ _) (ht h))
      (steps_next fun h => k.afterStraps (k.ofLocal (watchAll_local _ _) (ht h))))
  | resetAsserted moment =>
    exact steps_ite (fun _ => steps_next id)
      (steps_next fun h => k.boardReset _ (k.cutPort _ (due h)))
  | resetReleased rate autojoin pins =>
    have ht (h : P s) := k.withPower { s.power with resetLow := false } (k.cutPort pins.clocked h)
    exact steps_ite (fun _ => steps_ite (fun _ => steps_next fun h =>
      k.afterStraps (k.ofLocal (watchAll_local _ _) (k.withStraps _ (ht h)))) (steps_next ht)) (steps_next id)
  | busIdle => exact steps_ite (fun _ => steps_next fun h => k.askRoster (k.withEngine _ (due h))) idle
  | frameStart byOther =>
    refine steps_ite (fun _ => steps_ite (fun _ => steps_next fun h =>
      k.hearStart (k.withEngine _ (k.askRoster (due h)))) ?_) idle
    split
    · exact steps_next fun h => k.beginOwn _ _ (k.askRoster (due h))
    · exact steps_next fun h => k.askRoster (due h)
  | arbitrationLoss atUrgency =>
    exact steps_ite (fun _ => steps_next fun h => k.withEngine _ (k.ofLocal (reportLoss_local _) (due h))) idle
  | headAging => exact steps_next (k.ofLocal (fireAging_local s))
  | transmissionFault => exact steps_ite (fun _ => steps_next fun h => k.withEngine _ (due h)) idle
  | bodyReceived bits =>
    refine steps_ite (fun _ => ?_) idle
    split
    · exact steps_next fun h => k.passOn _ (k.withEngine _ (due h))
    · exact steps_next fun h => k.withEngine _ (due h)
  | frameEnd tail =>
    exact steps_ite (fun _ => steps_ite (fun _ => steps_next fun h => k.withEngine _ (k.reportBroken (due h)))
      (steps_next fun h => k.withEngine _ (k.complete tail (due h))))
      (steps_ite (fun _ => steps_next fun h => k.withEngine _ (due h)) idle)
  | repeatedBreaks => exact steps_next k.fireBreaks
  | stuckLine =>
    exact steps_ite (fun _ => steps_next fun h => k.ofLocal (busFault_local _ _) (k.withEngine _ (due h))) idle
  | retryExhaustion => exact steps_next k.fireRetry
  | rosterRetryExhaustion => exact steps_next k.fireRosterRetry
  | adriftFrameCountExpiry => exact steps_next k.fireAdriftCount
  | automaticJoin =>
    refine steps_ite (fun hc => steps_next fun h => k.toJoining (due h) ?_) idle
    have ht := hc.1
    simp only [State.timing, Bool.and_eq_true, decide_eq_true_eq] at ht
    exact ht.1.2
  | joinWaitExpiry =>
    exact steps_ite (fun _ => steps_ite (fun _ => steps_next fun h => k.retryJoin (due h))
      (steps_next fun h => k.found (due h))) idle
  | transferTimerExpiry => exact steps_ite (fun _ => steps_next fun h => k.toAdrift _ (due h)) idle
  | adriftWaitExpiry => exact steps_ite (fun _ => steps_next fun h => k.exitAdrift (due h)) idle
  | lineActive n =>
    exact steps_ite (fun _ => steps_next fun h =>
      k.ofLocal ((readLevel_local _ _ _).trans (lineRises_local _ _)) (due h)) idle
  | lineInactive n =>
    exact steps_ite (fun _ => steps_next fun h =>
      k.ofLocal ((readLevel_local _ _ _).trans (lineFalls_local _ _)) (due h)) idle
  | qualificationExpiry n =>
    exact steps_ite (fun _ => steps_next fun h => k.ofLocal (takeLine_local _ _) (due h)) idle
  | status rest => exact port (keeps_answer P _) _ _
  | readAlerts rest => exact port (fun _ h => k.withAlerts _ _ h) _ _
  | setStationQualifyTime rest =>
    refine port (keeps_setStation fun _ _ _ t h _ => ?_) _ _
    exact k.withItems _ h id
  | setStationJoinWait rest =>
    refine port (keeps_setStation fun _ _ hv _ h _ => ?_) _ _
    exact k.withItems _ h fun ⟨_, hd⟩ => ⟨joinWait_inRange hv, hd⟩
  | setStationAutoRejoin rest =>
    refine port (keeps_setStation fun _ _ _ t h _ => ?_) _ _
    exact k.withItems _ h id
  | setStationDetachedLevel rest =>
    refine port (keeps_setStation fun _ v _ _ h hd => ?_) _ _
    exact k.setPolicy _ v h hd id
  | setStationAlertMask rest =>
    refine port (keeps_setStation fun _ v _ t h _ => ?_) _ _
    exact k.withAlerts t.alerts.pending v (k.withItems { t.items with alertMask := v } h id)
  | setStationFoundingDropLimit rest =>
    refine port (keeps_setStation fun _ _ hv _ h _ => ?_) _ _
    exact k.withItems _ h fun ⟨hj, _⟩ => ⟨hj, dropLimit_inRange hv⟩
  | setStationFoundingLossSeverity rest =>
    refine port (keeps_setStation fun _ _ _ t h _ => ?_) _ _
    exact k.withItems _ h id
  | setSourceClass source rest => 
    refine port (keeps_setSource fun _ _ _ h _ => ?_) _ _
    exact k.ofLocal (Local.ofMonitor _ _) h
  | setSourceMode source rest =>
    refine port (keeps_setLineItem fun _ _ _ h _ => ?_) _ _
    exact k.ofLocal ((Local.ofMonitor _ _).trans (watchLine_local _ _)) h
  | setSourcePolarity source rest =>
    refine port (keeps_setLineItem fun _ _ _ h _ => ?_) _ _
    exact k.ofLocal ((Local.ofMonitor _ _).trans (watchLine_local _ _)) h
  | setSourceThreshold source rest =>
    
    refine port (keeps_setSource fun _ _ _ h _ => ?_) _ _
    exact k.ofLocal (Local.ofMonitor _ _) h
  | join rest =>
    refine port (fun t h => ?_) _ _
    split
    · next hd => exact k.toJoining h hd
    · exact h
  | leave rest =>
    refine port (fun t h => ?_) _ _
    split
    · exact k.offerNotice t.queue.ok_offerLeave h
    · exact h
  | raise rest =>
    refine port (fun t h => ?_) _ _
    split
    · split
      · exact k.ofLocal (assertSource_local _ _ _) h
      · exact h
    · exact h
  | releaseSource rest =>
    refine port (keeps_withByte fun _ n _ t h => ?_) _ _
    split
    · exact h
    · exact k.ofLocal (Local.ofMonitor _ _) h
  | resolve rest =>
    refine port (keeps_withByte fun _ b _ t h => ?_) _ _
    split
    · exact h
    · exact k.offerNotice (t.queue.ok_offerResolve _) h
  | requestClear rest =>
    refine port (fun t h => ?_) _ _
    split
    · split
      · split
        · exact k.offerNotice (t.queue.ok_offerRequested _ _ _) h
        · exact h
      · exact h
    · exact h
  | readLocal rest => exact port (fun t h => keeps_withByte (fun _ _ _ _ h => h) t h) _ _
  | clearLocalFirst rest => exact port (fun t h => k.ofLocal (clearLocalFirst_local t) h) _ _
  | readCounter rest => exact port (keeps_withByte fun _ _ _ _ h => h) _ _
  | clearCounter rest =>
    refine port (keeps_withByte fun _ _ _ _ h => ?_) _ _
    exact k.ofLocal (Local.ofMonitor _ _) h
  | readEntry rest => exact port (keeps_withByte fun _ _ _ => keeps_readCopy P _) _ _
  | readChassisFirst rest => exact port (keeps_readCopy P _) _ _
  | readRoster rest => exact port (keeps_readCopy P _) _ _
  | commandCodeNamesNoCommand bytes =>
    refine steps_ite (fun _ => ?_) idle
    split
    · exact steps_next fun h => k.shifts _ (due h)
    · exact steps_ite (fun _ => steps_next fun h => k.shifts _ (due h)) (port (keeps_refuse P _) _ _)

theorem Kept.step (k : Kept P) {s t : State} (h : P s) (he : step s = .next t) : P t := by
  unfold Machine.step at he
  split at he
  · cases he
    exact h
  · next c rest _ =>
    obtain ⟨u, hu, hk⟩ := k.exec c (s.withPending rest)
    rw [hu] at he
    cases he
    exact hk (k.withPending rest h)

/-! ### The invariants of Safety.lean -/

theorem kept_sound : Kept State.sound where
  ofLocal := Local.sound
  reset _ _ := reset_sound
  withPending := withPending_sound _
  withPower := withPower_sound _
  withStraps := withStraps_sound _
  withEngine := withEngine_sound _
  withPort := withPort_sound _
  withFree := withFree_sound _
  withItems i h _ := withItems_sound _ i h
  setPolicy i p h hd _ := setPolicy_sound i p _ h hd
  withAlerts _ _ h := ⟨⟨rfl, h.1.2⟩, h.2⟩
  boardReset p := boardReset_sound p _
  afterStraps := afterStraps_sound _
  fireBreaks := fireBreaks_sound _
  fireRetry := fireRetry_sound _
  fireRosterRetry := fireRosterRetry_sound _
  fireAdriftCount := fireAdriftCount_sound _
  askRoster := askRoster_sound _
  hearStart := hearStart_sound _
  beginOwn path f := beginOwn_sound path f _
  passOn f := passOn_sound f _
  reportBroken := reportBroken_sound _
  complete t := complete_sound t _
  toJoining := toJoining_sound _
  retryJoin := retryJoin_sound _
  found := found_sound _
  toAdrift code h := toAdrift_sound code _ h.1.1 h.2.2.1
  exitAdrift := exitAdrift_sound _

/-- Settles O3: every shared operation keeps `State.sound`, and every row is built out of them. -/
theorem stepKeepsTheInvariants : Obligations.StepKeepsTheInvariants :=
  fun _ _ h he => kept_sound.step h he

/-- Settles O4. -/
theorem resetStateMeetsTheInvariants : Obligations.ResetStateMeetsTheInvariants := reset_sound

theorem kept_legal : Kept State.legal where
  ofLocal := Local.legal
  reset _ _ := legal_default rfl rfl
  withPending _ h := legal_same h rfl rfl rfl
  withPower _ h := legal_same h rfl rfl rfl
  withStraps _ h := legal_same h rfl rfl rfl
  withEngine _ h := legal_same h rfl rfl rfl
  withPort _ h := legal_same h rfl rfl rfl
  withFree _ h := legal_same h rfl rfl rfl
  withItems _ h hr := ⟨h.1, hr h.2⟩
  setPolicy i p h _ hr := legal_same (s := State.withItems _ i) ⟨h.1, hr h.2⟩ (by simp) (by simp) (by simp)
  withAlerts _ _ h := legal_same h rfl rfl rfl
  boardReset p _ := boardReset_legal p _
  afterStraps := afterStraps_legal _
  fireBreaks := fireBreaks_legal _
  fireRetry := fireRetry_legal _
  fireRosterRetry := fireRosterRetry_legal _
  fireAdriftCount := fireAdriftCount_legal _
  askRoster := askRoster_legal _
  hearStart := hearStart_legal _
  beginOwn path f := beginOwn_legal path f _
  passOn f := passOn_legal f _
  reportBroken := reportBroken_legal _
  complete t := complete_legal t _
  toJoining := toJoining_legal _
  retryJoin := retryJoin_legal _
  found := found_legal _
  toAdrift code := toAdrift_legal code _
  exitAdrift := exitAdrift_legal _

/-- Settles O5: every shared operation keeps `State.legal`; the two items with a range are written in it. -/
theorem dutiesAndItemsStayLegal : Obligations.DutiesAndItemsStayLegal :=
  ⟨reset_legal, fun _ _ h he => kept_legal.step h he⟩

end Sys2Proof.Machine
end

section
/-! PROOFS. The front command (log 2) and the events due inside the station (log 5): once they are taken none is due, and the
rows that wait for them act as on the state after them. -/

namespace Sys2Proof.Machine

/-- Settles O1. -/
theorem stepRunsTheFrontCommand : Obligations.StepRunsTheFrontCommand :=
  ⟨fun _ _ _ h => by rw [step, h], fun _ h => by rw [step, h]⟩

/-! ### The head in flight through assertions -/

/-- The counts of the head in flight: what an arrival at the queue leaves of it (R64 takes its link alone). -/
def Queue.headCounts (q : Queue) : Option (Nat × Nat × Nat × Bool) :=
  q.inFlight.map (fun h => (h.transmissions, h.losses, h.urgency, h.agingDue))

theorem headCounts_unlink (q : Queue) (n : BitVec 6) : (q.unlink n).headCounts = q.headCounts := by
  simp [Queue.headCounts, Queue.unlink, Function.comp_def]

theorem insert_inFlight (q : Queue) (n : Notice) (linked : Bool) : (q.insert n linked).queue.inFlight = q.inFlight := by
  unfold Queue.insert
  dsimp only
  split
  · rfl
  · split
    · rfl
    · split <;> rfl

theorem headCounts_insert (q : Queue) (n : Notice) (linked : Bool) :
    (q.insert n linked).queue.headCounts = q.headCounts := by rw [Queue.headCounts, insert_inFlight, Queue.headCounts]

theorem headCounts_offerFault (q : Queue) (r : Report) (linked : Bool) :
    (q.offerFault r linked).queue.headCounts = q.headCounts := by
  have hmet : (if linked = true then (q.cancelResolve r.source).unlink r.source else q.cancelResolve r.source).headCounts
      = q.headCounts := by
    split
    · exact headCounts_unlink _ _
    · rfl
  unfold Queue.offerFault
  dsimp only
  split
  · split
    · exact hmet
    all_goals exact (headCounts_insert _ _ _).trans hmet
  · exact (headCounts_insert _ _ _).trans hmet

theorem headCounts_answered (a : Answer) (s : State) : (s.answered a).queue.headCounts = a.queue.headCounts := by
  unfold State.answered State.displaced
  split
  · split
    · exact headCounts_unlink _ _
    · rfl
  · rfl

theorem headCounts_takeFault (r : Report) (linked : Bool) (s : State) :
    (s.takeFault r linked).queue.headCounts = s.queue.headCounts := by
  have h := (headCounts_answered (s.queue.offerFault r linked) s).trans (headCounts_offerFault _ _ _)
  unfold State.takeFault
  dsimp only
  split
  · split <;> exact h
  · split <;> exact h

theorem headCounts_assertSource (n : Fin 32) (d : Word) (s : State) :
    (s.assertSource n d).queue.headCounts = s.queue.headCounts := by
  unfold State.assertSource State.raiseFault
  dsimp only
  split
  · rw [headCounts_takeFault]
    simp
  · rfl

/-- An assertion leaves no head in flight where none was. -/
theorem assertSource_inFlight_none {s : State} (n : Fin 32) (d : Word) (h : s.queue.inFlight = none) :
    (s.assertSource n d).queue.inFlight = none := by
  have hc := headCounts_assertSource n d s
  rw [Queue.headCounts, Queue.headCounts, h] at hc
  simpa using hc

@[simp] theorem returnHead_inFlight (q : Queue) : q.returnHead.inFlight = none := by
  unfold Queue.returnHead Queue.headBack
  split
  · assumption
  · rfl

/-! ### Nothing is due once the due events are taken -/

/-- The first three due events have left nothing of theirs: no aging, no head at the retry limit, no repeated breaks. -/
def State.quietBus (s : State) : Prop :=
  (∀ h, s.queue.inFlight = some h → h.agingDue = false ∧ h.transmissions < 16) ∧ s.engine.broken < 4

/-- The station gone ADRIFT, before it asserts STEP_LOSS (R118). -/
def State.driftOff (s : State) : State :=
  ((s.abandon.withCtl { s.abandon.ctl with
    station := .adrift
    adriftLeaving := decide (s.ctl.station = .leaving)
    adriftFrames := 0
    joinTimer := some s.abandon.items.joinWait }).redrive).setCause .stepLoss

theorem toAdrift_eq (code : Word) (s : State) : s.toAdrift code = s.driftOff.assertSource 31 code := rfl

/-- The Roster Controller of a station gone ADRIFT. -/
@[simp] theorem driftOff_ctl (s : State) : s.driftOff.ctl = { s.ctl with
    station := .adrift
    duties := none
    admission := none
    transfer := none
    joinOwed := false
    adriftLeaving := decide (s.ctl.station = .leaving)
    adriftFrames := 0
    joinTimer := some s.items.joinWait } := by simp [State.driftOff]

@[simp] theorem driftOff_engine (s : State) : s.driftOff.engine = { s.engine with foreign := 0 } := by
  simp [State.driftOff]

@[simp] theorem driftOff_queue (s : State) : s.driftOff.queue = s.queue.returnHead := by simp [State.driftOff]

/-- A station that has just gone ADRIFT owes nothing but breaks. -/
theorem toAdrift_nothingDue (code : Word) {s : State} (hb : s.engine.broken < 4) : (s.toAdrift code).nothingDue := by
  rw [toAdrift_eq]
  have l := assertSource_local 31 code s.driftOff
  have hq : (s.driftOff.assertSource 31 code).queue.inFlight = none := assertSource_inFlight_none 31 code (by simp)
  refine ⟨fun h hh => ?_, ?_, fun d hd => ?_, fun _ => ?_⟩
  · rw [hq] at hh
    cases hh
  · rw [l.engine]
    simpa using hb
  · rw [l.ctl] at hd
    simp at hd
  · rw [l.ctl]
    simp

theorem toDetached_nothingDue (c : Removal) (j : Bool) {s : State} (hb : s.engine.broken < 4) :
    (s.toDetached c j).nothingDue := by
  refine ⟨fun h hh => ?_, ?_, fun d hd => ?_, fun ha => ?_⟩
  · simp [State.toDetached] at hh
  · simpa [State.toDetached] using hb
  · simp [State.toDetached] at hd
  · simp [State.toDetached] at ha

theorem fireAging_rested (s : State) : ∀ h, s.fireAging.queue.inFlight = some h → h.agingDue = false := by
  intro h hh
  unfold State.fireAging at hh
  split at hh
  · next x hx =>
    split at hh
    · simp only [State.withQueue_queue, Queue.modifyHead, hx, Option.map_some, Option.some.injEq] at hh
      rw [← hh]
      rfl
    · next hna =>
      rw [hx, Option.some.injEq] at hh
      rw [← hh]
      simpa using hna
  · next hx => rw [hx] at hh; cases hh

theorem fireBreaks_rested {s : State} (hr : ∀ h, s.queue.inFlight = some h → h.agingDue = false) :
    (∀ h, s.fireBreaks.queue.inFlight = some h → h.agingDue = false) ∧ s.fireBreaks.engine.broken < 4 := by
  unfold State.fireBreaks
  split
  · refine ⟨fun h hh => ?_, by rw [(busFault_local _ _).engine]; exact Nat.zero_lt_succ 3⟩
    have hc : (State.busFault 0x00000001 (s.withEngine { s.engine with broken := 0 })).queue.headCounts
        = s.queue.headCounts := headCounts_assertSource _ _ _
    rw [Queue.headCounts, hh, Queue.headCounts] at hc
    cases hx : s.queue.inFlight with
    | none => rw [hx] at hc; cases hc
    | some x =>
      rw [hx] at hc
      simp only [Option.map_some, Option.some.injEq, Prod.mk.injEq] at hc
      rw [hc.2.2.2]
      exact hr x hx
  · exact ⟨hr, by omega⟩

theorem fireRetry_quietBus {s : State} (hr : ∀ h, s.queue.inFlight = some h → h.agingDue = false)
    (hb : s.engine.broken < 4) : s.fireRetry.quietBus := by
  unfold State.fireRetry
  split
  · obtain ⟨hq, hbroken, -, -⟩ := toAdrift_nothingDue 0x00000015 (s := s.retryHead) (by simpa using hb)
    exact ⟨hq, hbroken⟩
  · next hne =>
    refine ⟨fun h hh => ⟨hr h hh, ?_⟩, hb⟩
    simpa [Queue.exhausted, hh] using hne

theorem fireRosterRetry_due {s : State} (hq : s.quietBus) :
    s.fireRosterRetry.quietBus ∧ ∀ d, s.fireRosterRetry.ctl.duties = some d → d.retries < 16 := by
  unfold State.fireRosterRetry
  split
  · obtain ⟨hhead, hbroken, hduties, -⟩ := toAdrift_nothingDue 0x00000015 hq.2
    exact ⟨⟨hhead, hbroken⟩, hduties⟩
  · next hne => exact ⟨hq, fun d hd => by simpa [Ctl.exhausted, hd] using hne⟩

theorem fireAdriftCount_nothingDue {s : State} (hq : s.quietBus) (hd : ∀ d, s.ctl.duties = some d → d.retries < 16) :
    s.fireAdriftCount.nothingDue := by
  unfold State.fireAdriftCount
  split
  · exact toDetached_nothingDue _ _ hq.2
  · next hne => exact ⟨hq.1, hq.2, hd, fun ha => by by_contra hge; exact hne ⟨ha, by omega⟩⟩

theorem settleDue_nothingDue (s : State) : s.settleDue.nothingDue := by
  obtain ⟨hrested, hbroken⟩ := fireBreaks_rested (fireAging_rested s)
  obtain ⟨hquiet, hduties⟩ := fireRosterRetry_due (fireRetry_quietBus hrested hbroken)
  exact fireAdriftCount_nothingDue hquiet hduties

@[simp] theorem settleDue_settleDue (s : State) : s.settleDue.settleDue = s.settleDue :=
  settleDue_of_nothingDue (settleDue_nothingDue s)

/-! ### The rows that wait -/

theorem kept_true : Kept (fun _ => True) := by constructor <;> intros <;> trivial

/-- A transaction acts on the state after the due events. -/
theorem transact_settleDue (code : Byte) (n : Nat) (act : State → Reply) (s : State) :
    s.settleDue.transact code n act = s.transact code n act := by
  unfold State.transact
  rw [settleDue_settleDue]

/-- A row that waits acts on the state after the due events: its meaning begins with them, and taken twice they are taken
once. -/
theorem exec_settleDue_of_waits {c : Instr} (hw : Spec.waits c) (s : State) : exec c s = exec c s.settleDue := by
  obtain ⟨hpower, hend, hassert, hrelease, haging, hbreaks, hretry, hroster, hadrift⟩ := hw
  cases c with
  | powerOn => exact absurd rfl hpower
  | endOfPowerOn a r j f => exact absurd rfl (hend a r j f)
  | resetAsserted p => exact absurd rfl (hassert p)
  | resetReleased r j f => exact absurd rfl (hrelease r j f)
  | headAging => exact absurd rfl haging
  | repeatedBreaks => exact absurd rfl hbreaks
  | retryExhaustion => exact absurd rfl hretry
  | rosterRetryExhaustion => exact absurd rfl hroster
  | adriftFrameCountExpiry => exact absurd rfl hadrift
  | busIdle => simp only [exec, execBusIdle, settleDue_settleDue]
  | frameStart byOther => simp only [exec, execFrameStart, settleDue_settleDue]
  | arbitrationLoss atUrgency => simp only [exec, execArbitrationLoss, settleDue_settleDue]
  | transmissionFault => simp only [exec, execTransmissionFault, settleDue_settleDue]
  | bodyReceived bits => simp only [exec, execBodyReceived, settleDue_settleDue]
  | frameEnd tail => simp only [exec, execFrameEnd, settleDue_settleDue]
  | stuckLine => simp only [exec, execStuckLine, settleDue_settleDue]
  | automaticJoin => simp only [exec, execAutomaticJoin, settleDue_settleDue]
  | joinWaitExpiry => simp only [exec, execJoinWaitExpiry, settleDue_settleDue]
  | transferTimerExpiry => simp only [exec, execTransferTimerExpiry, settleDue_settleDue]
  | adriftWaitExpiry => simp only [exec, execAdriftWaitExpiry, settleDue_settleDue]
  | lineActive n => simp only [exec, execLineActive, settleDue_settleDue]
  | lineInactive n => simp only [exec, execLineInactive, settleDue_settleDue]
  | qualificationExpiry n => simp only [exec, execQualificationExpiry, settleDue_settleDue]
  | commandCodeNamesNoCommand bytes =>
    simp only [exec, execCommandCodeNamesNoCommand, settleDue_settleDue, transact_settleDue]
  | _ => exact congrArg Host.Outcome.next (transact_settleDue _ _ _ s).symm

theorem exec_resetAsserted_settleDue (moment : Moment) {s : State} (h : s.power.resetLow = false) :
    exec (.resetAsserted moment) s = exec (.resetAsserted moment) s.settleDue := by
  have hd : s.settleDue.power.resetLow = false := by rw [settleDue_power, h]
  simp [exec, execResetAsserted, h, hd]

/-- Settles O2: no arm of `exec` stops, and the due events leave nothing due, so the rows that begin with them may as well
begin on the state after them. -/
theorem everyCommandCompletesAfterTheDueEvents : Obligations.EveryCommandCompletesAfterTheDueEvents := by
  refine ⟨fun c s => ?completes, fun c s hw => ⟨settleDue_nothingDue s, exec_settleDue_of_waits hw s⟩,
    fun moment s h => ⟨settleDue_nothingDue s, settleDue_power s, exec_resetAsserted_settleDue moment h⟩,
    fun s => ⟨_, _, _, _, rfl, rfl, rfl, rfl, rfl⟩⟩
  case completes =>
    obtain ⟨t, ht, -⟩ := kept_true.exec c s
    exact ⟨t, ht⟩

end Sys2Proof.Machine
end

section
/-! PROOFS. The chassis copy: an arrival at a full table (R10, R11), RESOLVE and LEAVE (R12, R16), CLEAR of scope FIRST (R29),
the halt latch and the since-first count through every settled frame (R22, R25). -/

namespace Sys2Proof.Machine

/-! ### The oldest entry of the lowest severity (R10) -/

theorem Severity.rank_injective {a b : Severity} (h : a.rank = b.rank) : a = b := by
  revert h
  cases a <;> cases b <;> decide

theorem lowestSeverity_eq_none {l : List Entry} (h : lowestSeverity l = none) : l = [] := by
  cases l with
  | nil => rfl
  | cons e rest => rw [lowestSeverity] at h; split at h <;> cases h

/-- The lowest severity is an entry's, and no entry is below it. -/
theorem lowestSeverity_spec {l : List Entry} {low : Severity} (h : lowestSeverity l = some low) :
    (∃ x ∈ l, x.severity = low) ∧ ∀ x ∈ l, low.rank ≤ x.severity.rank := by
  induction l generalizing low with
  | nil => cases h
  | cons e rest ih =>
    rw [lowestSeverity] at h
    split at h
    · next hnone =>
      rw [lowestSeverity_eq_none hnone, ← Option.some.inj h]
      simp
    · next s hs =>
      obtain ⟨⟨x, hx, hxs⟩, hle⟩ := ih hs
      simp only [Option.some.injEq] at h
      split at h
      · next hlt =>
        subst h
        exact ⟨⟨x, List.mem_cons_of_mem _ hx, hxs⟩, List.forall_mem_cons.2 ⟨hlt.le, hle⟩⟩
      · next hge =>
        subst h
        exact ⟨⟨e, List.mem_cons_self, rfl⟩, List.forall_mem_cons.2 ⟨le_rfl, fun y hy => by
          have := hle y hy
          omega⟩⟩

/-- The first entry below which none stands has the lowest severity. -/
theorem lowestSeverity_of_split {pre post : List Entry} {x : Entry} (hpre : ∀ y ∈ pre, x.severity.rank < y.severity.rank)
    (hpost : ∀ y ∈ post, x.severity.rank ≤ y.severity.rank) : lowestSeverity (pre ++ x :: post) = some x.severity := by
  cases h : lowestSeverity (pre ++ x :: post) with
  | none => exact absurd (lowestSeverity_eq_none h) (by simp)
  | some low =>
    obtain ⟨⟨y, hy, rfl⟩, hle⟩ := lowestSeverity_spec h
    have hxy : x.severity.rank ≤ y.severity.rank := by
      rcases List.mem_append.1 hy with hy | hy
      · exact (hpre y hy).le
      · rcases List.mem_cons.1 hy with rfl | hy
        · exact le_rfl
        · exact hpost y hy
    rw [Severity.rank_injective (hxy.antisymm (hle x (by simp)))]

theorem evictFor_of_split {pre post : List Entry} {x : Entry} {severity : Severity}
    (hpre : ∀ y ∈ pre, x.severity.rank < y.severity.rank) (hpost : ∀ y ∈ post, x.severity.rank ≤ y.severity.rank)
    (hlow : x.severity.rank < severity.rank) : evictFor severity (pre ++ x :: post) = some (pre ++ post) := by
  have hskip : ∀ y ∈ pre, ¬decide (y.severity = x.severity) = true := fun y hy he => by
    have := hpre y hy
    rw [decide_eq_true_eq] at he
    rw [he] at this
    omega
  simp only [evictFor, lowestSeverity_of_split hpre hpost, hlow, if_true]
  rw [List.eraseP_append_right _ hskip, List.eraseP_cons_of_pos (by simp)]

theorem evictFor_of_none_below {l : List Entry} {severity : Severity} (h : ∀ y ∈ l, severity.rank ≤ y.severity.rank) :
    evictFor severity l = none := by
  unfold evictFor
  split
  · rfl
  · next low hlow =>
    obtain ⟨⟨y, hy, rfl⟩, -⟩ := lowestSeverity_spec hlow
    exact if_neg (Nat.not_lt.2 (h y hy))

/-! ### An arrival, by the place it finds (R8 to R11, R24) -/

theorem any_same_eq_false {c : Chassis} {e : Entry} (hn : ∀ y ∈ c.table, y.apart e) : c.table.any e.same = false :=
  List.any_eq_false.2 (fun y hy => by simp [(same_eq_false_iff e y).2 (hn y hy)])

/-- R10: an arrival at a full table that evicts. -/
theorem place_of_evict {c : Chassis} {e : Entry} {t : List Entry} (hn : ∀ y ∈ c.table, y.apart e)
    (hfull : c.table.length = 32) (he : evictFor e.severity c.table = some t) :
    c.place e = { c with table := t ++ [e] } := by
  simp [Chassis.place, any_same_eq_false hn, tableCapacity, hfull, he]

/-- R11: an arrival at a full table that finds none to evict. -/
theorem place_of_drop {c : Chassis} {e : Entry} (hn : ∀ y ∈ c.table, y.apart e) (hfull : c.table.length = 32)
    (he : evictFor e.severity c.table = none) : c.place e = { c with dropped := satInc c.dropped } := by
  simp [Chassis.place, any_same_eq_false hn, tableCapacity, hfull, he]

/-- R10, R24: the arrival evicts. -/
theorem arrive_evicts {c : Chassis} {e x : Entry} {pre post : List Entry} (hn : ∀ y ∈ c.table, y.apart e)
    (hfull : c.table.length = 32) (ht : c.table = pre ++ x :: post)
    (hpre : ∀ y ∈ pre, x.severity.rank < y.severity.rank) (hpost : ∀ y ∈ post, x.severity.rank ≤ y.severity.rank)
    (hlow : x.severity.rank < e.severity.rank) :
    (c.arrive e).table = pre ++ post ++ [e] ∧ (c.arrive e).dropped = c.dropped
      ∧ (c.arrive e).halt = (c.halt || decide (e.severity = .critical)) := by
  have hp : c.place e = { c with table := pre ++ post ++ [e] } :=
    place_of_evict hn hfull (by rw [ht, evictFor_of_split hpre hpost hlow])
  rw [arrive_table, arrive_dropped, arrive_halt (pre := pre ++ post) (post := []) (by rw [hp]) ((same_iff e e).2 ⟨rfl, rfl⟩)
    (fun z hz => hn z ?_), hp]
  · exact ⟨rfl, rfl, rfl⟩
  · rw [ht]
    simp only [List.append_nil, List.mem_append] at hz
    simpa using hz.imp_right .inr

/-- R11, R24: the arrival is dropped and counted. -/
theorem arrive_drops {c : Chassis} {e : Entry} (hn : ∀ y ∈ c.table, y.apart e) (hfull : c.table.length = 32)
    (hlow : ∀ y ∈ c.table, e.severity.rank ≤ y.severity.rank) :
    (c.arrive e).table = c.table ∧ (c.arrive e).dropped.toNat = min 65535 (c.dropped.toNat + 1)
      ∧ (c.arrive e).halt = c.halt := by
  have hp := place_of_drop hn hfull (evictFor_of_none_below hlow)
  have hany : c.table.any (fun x => e.same x && decide (x.severity = .critical)) = false :=
    List.any_eq_false.2 (fun y hy => by simp [(same_eq_false_iff e y).2 (hn y hy)])
  rw [arrive_frame, hp]
  exact ⟨rfl, satInc_toNat c.dropped, by simp [hany]⟩

/-- R9, R24: the arrival enters at the end. -/
theorem arrive_enters {c : Chassis} {e : Entry} (hn : ∀ y ∈ c.table, y.apart e) (hroom : c.table.length < 32) :
    (c.arrive e).table = c.table ++ [e] ∧ (c.arrive e).dropped = c.dropped
      ∧ (c.arrive e).halt = (c.halt || decide (e.severity = .critical)) := by
  have hp := place_of_room hn hroom
  rw [arrive_table, arrive_dropped, arrive_halt (pre := c.table) (post := []) (by rw [hp]) ((same_iff e e).2 ⟨rfl, rfl⟩)
    (by simpa using hn), hp]
  exact ⟨rfl, rfl, rfl⟩

/-- R8, R24: the arrival coalesces. -/
theorem arrive_coalesces {c : Chassis} {e x : Entry} {pre post : List Entry} (ht : c.table = pre ++ x :: post)
    (hx : e.same x = true) (hn : ∀ y ∈ pre ++ post, y.apart e) :
    (c.arrive e).table = pre ++ x.coalesce e :: post ∧ (c.arrive e).dropped = c.dropped
      ∧ (c.arrive e).halt = (c.halt || decide ((x.coalesce e).severity = .critical)) := by
  have hp := place_of_held ht hx hn
  rw [arrive_table, arrive_dropped, arrive_halt (y := x.coalesce e) (by rw [hp]) hx hn, hp]
  exact ⟨rfl, rfl, rfl⟩

/-- Settles O9: the full table splits at the entry that the arrival evicts, or has no entry below it. -/
theorem fullTableEvictsOrDrops : Obligations.FullTableEvictsOrDrops := fun c sender r hfull hn =>
  have hfault := apply_fault c sender r
  ⟨fun _ _ _ ht hpre hpost hlow => by
      rw [hfault]
      exact arrive_evicts (e := c.faultEntry sender r) hn hfull ht hpre hpost hlow,
    fun hlow => by
      rw [hfault]
      exact arrive_drops (e := c.faultEntry sender r) hn hfull hlow,
    apply_fault_offered c sender r, apply_fault_faultFrame c sender r⟩

/-! ### RESOLVE and LEAVE -/

/-- The record of an address depends on the records alone. -/
theorem record_of_records {c : Chassis} {f : Addr → Option Member} (h : c.records = recordsOf f) (a : Addr) :
    c.record a = f a := by
  simp [Chassis.record, h, recordsOf]

theorem apply_resolve (c : Chassis) (sender : Addr) (source : BitVec 6) :
    c.apply sender (.notice (.resolve source)) =
      { c with
        table := (c.removeEntry sender source).table
        settle := c.settle + 1
        level := deriveLevel c.halt (c.removeEntry sender source).table } := rfl

theorem apply_leave (c : Chassis) (sender : Addr) :
    c.apply sender (.notice .leave) =
      { c with
        records := (c.setMemberState sender .departing).records
        settle := c.settle + 1
        level := deriveLevel c.halt c.table } := by
  simp [Chassis.apply, Body.numbered, Chassis.applyBody, Chassis.setMemberState, Chassis.nextSettle]

theorem apply_leave_record (c : Chassis) (sender a : Addr) :
    (c.apply sender (.notice .leave)).record a
      = if a = sender then (c.record a).map (fun m => { m with state := .departing }) else c.record a := by
  rw [apply_leave]
  refine record_of_records (f := fun b =>
    if b = sender then (c.record b).map (fun m => { m with state := .departing }) else c.record b) ?_ a
  rfl

/-- Settles O10: a RESOLVE touches the table alone, a LEAVE its sender's record alone, beside settle number and level. -/
theorem resolveAndLeaveAtTheCopy : Obligations.ResolveAndLeaveAtTheCopy := by
  intro c sender
  have hleave := apply_leave c sender
  refine ⟨fun source => ?resolve, by rw [hleave], by rw [hleave], fun m hm => ?departs, fun hnone => ?absent,
    fun a ha => ?other, by rw [hleave], by rw [hleave], by rw [hleave], by rw [hleave]⟩
  case resolve =>
    rw [apply_resolve]
    refine ⟨?_, rfl, rfl, rfl, rfl, rfl, rfl, rfl, rfl, rfl, deriveLevel_levelOf _ _⟩
    simp [Chassis.removeEntry]
  case departs => rw [apply_leave_record, if_pos rfl, hm, Option.map_some]
  case absent => rw [apply_leave_record, if_pos rfl, hnone, Option.map_none]
  case other => rw [apply_leave_record, if_neg ha]

/-! ### CLEAR of scope FIRST (R29) -/

theorem apply_clear_of_stale {c : Chassis} {sender : Addr} {scope : Scope} {o : Addr} {reference : Word}
    (h : c.clearOutcome sender scope o reference = .stale) :
    c.apply sender (.notice (.clear scope o reference)) =
      { c with settle := c.settle + 1, level := deriveLevel c.halt c.table } := by
  simp only [apply_clear, Chassis.applyClear, h]

theorem clearOutcome_first_of_match {c : Chassis} {f : First} (sender o : Addr) (h : c.first = some f) :
    c.clearOutcome sender .first o f.settle = .done := by
  simp [Chassis.clearOutcome, h]

theorem clearOutcome_first_of_no_match {c : Chassis} (sender o : Addr) {reference : Word}
    (h : ∀ f, c.first = some f → f.settle ≠ reference) : c.clearOutcome sender .first o reference = .stale := by
  cases hf : c.first with
  | none => simp [Chassis.clearOutcome, hf]
  | some f => simp [Chassis.clearOutcome, hf, h f hf]

/-- Settles O11: the outcome splits on a first record with the reference, and gives the copy. -/
theorem clearOfTheFirstRecord : Obligations.ClearOfTheFirstRecord := by
  refine fun c sender o reference => ⟨fun f hf hsettle => ?done, fun hno => ?stale⟩
  case done =>
    subst hsettle
    have hout := clearOutcome_first_of_match sender o hf
    rw [apply_clear_of_done hout]
    exact ⟨hout, rfl⟩
  case stale =>
    have hout := clearOutcome_first_of_no_match sender o hno
    exact ⟨hout, apply_clear_of_stale hout⟩

/-! ### The latch over CRITICAL entries (R25) and the count without a first record (R22) -/

/-- R25: every CRITICAL entry has the halt latch set. -/
def Chassis.latchCovers (c : Chassis) : Prop := ∀ x ∈ c.table, x.severity = .critical → c.halt = true

/-- R22: an absent first record goes with a count of 0. -/
def Chassis.countsSince (c : Chassis) : Prop := c.first = none → c.sinceFirst = 0

theorem latchCovers_of_subset {c d : Chassis} (h : c.latchCovers) (ht : d.table ⊆ c.table) (hh : d.halt = c.halt) :
    d.latchCovers := fun x hx hs => by rw [hh]; exact h x (ht hx) hs

@[simp] theorem adopt_table (c : Chassis) (r : RosterBody) : (c.adopt r).table = c.table := by simp only [Chassis.adopt]
@[simp] theorem adopt_halt (c : Chassis) (r : RosterBody) : (c.adopt r).halt = c.halt := by simp only [Chassis.adopt]
@[simp] theorem adopt_first (c : Chassis) (r : RosterBody) : (c.adopt r).first = c.first := by simp only [Chassis.adopt]
@[simp] theorem adopt_sinceFirst (c : Chassis) (r : RosterBody) : (c.adopt r).sinceFirst = c.sinceFirst := by
  simp only [Chassis.adopt]

@[simp] theorem setMemberState_table (c : Chassis) (a : Addr) (st : MemberState) :
    (c.setMemberState a st).table = c.table := by simp only [Chassis.setMemberState]
@[simp] theorem setMemberState_halt (c : Chassis) (a : Addr) (st : MemberState) :
    (c.setMemberState a st).halt = c.halt := by simp only [Chassis.setMemberState]
@[simp] theorem setMemberState_first (c : Chassis) (a : Addr) (st : MemberState) :
    (c.setMemberState a st).first = c.first := by simp only [Chassis.setMemberState]
@[simp] theorem setMemberState_sinceFirst (c : Chassis) (a : Addr) (st : MemberState) :
    (c.setMemberState a st).sinceFirst = c.sinceFirst := by simp only [Chassis.setMemberState]
@[simp] theorem setMemberState_level (c : Chassis) (a : Addr) (st : MemberState) :
    (c.setMemberState a st).level = c.level := by simp only [Chassis.setMemberState]
@[simp] theorem setMemberState_settle (c : Chassis) (a : Addr) (st : MemberState) :
    (c.setMemberState a st).settle = c.settle := by simp only [Chassis.setMemberState]
@[simp] theorem setMemberState_dropLimit (c : Chassis) (a : Addr) (st : MemberState) :
    (c.setMemberState a st).dropLimit = c.dropLimit := by simp only [Chassis.setMemberState]

/-- An entry of another origin or source than the arrival's was there before. -/
theorem mem_place_of_apart {c : Chassis} {e x : Entry} (hx : x ∈ (c.place e).table) (ha : e.same x = false) :
    x ∈ c.table := by
  unfold Chassis.place at hx
  split at hx
  · obtain ⟨y, hy, rfl⟩ := List.mem_map.1 hx
    split at ha
    · next hs =>
      rw [same_iff] at hs
      rw [same_eq_false_iff] at ha
      exact absurd hs ha
    · next hs => rwa [if_neg hs]
  · have hne : x ≠ e := fun he => by
      rw [same_eq_false_iff, he] at ha
      exact ha ⟨rfl, rfl⟩
    split at hx
    · simpa [hne] using hx
    · split at hx
      · next t ht =>
        have hmem : x ∈ t := by simpa [hne] using hx
        exact (evictFor_sublist ht).subset hmem
      · exact hx

theorem arrive_latchCovers {c : Chassis} (e : Entry) (h : c.latchCovers) : (c.arrive e).latchCovers := by
  intro x hx hcrit
  rw [arrive_table] at hx
  rw [arrive_frame, Bool.or_eq_true]
  cases hs : e.same x with
  | true => exact .inr (List.any_eq_true.2 ⟨x, hx, by simp [hs, hcrit]⟩)
  | false => exact .inl (h x (mem_place_of_apart hx hs) hcrit)

/-- After an arrival there is a first record. -/
theorem arrive_first_ne_none (c : Chassis) (e : Entry) : (c.arrive e).first ≠ none := by
  rw [arrive_frame]
  unfold Chassis.offerFirst
  cases c.first <;> simp

theorem arrive_countsSince (c : Chassis) (e : Entry) : (c.arrive e).countsSince :=
  fun h => absurd h (arrive_first_ne_none c e)

/-- A condition that every arrival keeps is kept by the LOSS creations of a ROSTER. -/
theorem createLosses_keeps {P : Chassis → Prop} (hk : ∀ c e, P c → P (Chassis.arrive c e)) {c : Chassis}
    (lost : List Addr) (severity : Option Severity) (settle : Word) (h : P c) : P (c.createLosses lost severity settle) := by
  cases severity with
  | none => exact h
  | some sev => exact List.foldlRecOn lost _ h (fun d hd a _ => hk d _ hd)

theorem applyClear_latchCovers {c : Chassis} (sender : Addr) (scope : Scope) (o : Addr) (reference : Word)
    (h : c.latchCovers) : (c.applyClear sender scope o reference).latchCovers := by
  unfold Chassis.applyClear
  split
  · next hdone =>
    cases scope with
    | first => exact h
    | halt =>
      intro x hx hcrit
      have hrefused := clearOutcome_halt_of_critical (c := c) sender o reference ⟨x, hx, hcrit⟩
      rw [hrefused] at hdone
      cases hdone
    | origin => exact latchCovers_of_subset h List.filter_sublist.subset rfl
  · exact h
  · exact h

theorem applyClear_countsSince {c : Chassis} (sender : Addr) (scope : Scope) (o : Addr) (reference : Word)
    (h : c.countsSince) : (c.applyClear sender scope o reference).countsSince := by
  unfold Chassis.applyClear
  split
  · cases scope with
    | first => exact fun _ => rfl
    | halt => exact h
    | origin => exact h
  · exact h
  · exact h

theorem applyBody_latchCovers {c : Chassis} (sender : Addr) (b : Body) (h : c.latchCovers) :
    (c.applyBody sender b).latchCovers := by
  unfold Chassis.applyBody
  split
  · exact arrive_latchCovers _ h
  · exact latchCovers_of_subset h List.filter_sublist.subset rfl
  · exact applyClear_latchCovers _ _ _ _ h
  · exact latchCovers_of_subset h (by simp) (setMemberState_halt c sender _)
  · next r =>
    have hadopt : (c.adopt r).latchCovers := latchCovers_of_subset h (by simp) (adopt_halt c r)
    intro x hx hcrit
    obtain ⟨y, hy, rfl⟩ := List.mem_map.1 hx
    exact createLosses_keeps (fun _ e => arrive_latchCovers e) _ r.loss c.nextSettle hadopt y hy hcrit
  · exact h
  · exact h

theorem applyBody_countsSince {c : Chassis} (sender : Addr) (b : Body) (h : c.countsSince) :
    (c.applyBody sender b).countsSince := by
  unfold Chassis.applyBody
  split
  · exact arrive_countsSince _ _
  · exact h
  · exact applyClear_countsSince _ _ _ _ h
  · rw [Chassis.countsSince, setMemberState_first, setMemberState_sinceFirst]
    exact h
  · next r =>
    have hadopt : (c.adopt r).countsSince := by
      rw [Chassis.countsSince, adopt_first, adopt_sinceFirst]
      exact h
    exact createLosses_keeps (fun d e _ => arrive_countsSince d e) _ r.loss c.nextSettle hadopt
  · exact h
  · exact h

/-- Settle number and level alone come on top of a body's effects. -/
theorem apply_eq (c : Chassis) (sender : Addr) (b : Body) :
    c.apply sender b = { c.applyBody sender b with
      settle := (c.apply sender b).settle
      level := (c.apply sender b).level } := by
  unfold Chassis.apply
  split <;> rfl

/-- A level below a latch that covers the CRITICAL entries is HALT exactly while the latch is set. -/
theorem deriveLevel_eq_halt {c : Chassis} (h : c.latchCovers) : deriveLevel c.halt c.table = .halt ↔ c.halt = true := by
  obtain ⟨hset, hempty, hclear⟩ := deriveLevel_levelOf c.halt c.table
  refine ⟨fun hl => ?_, hset⟩
  by_contra hno
  have hfalse : c.halt = false := by simpa using hno
  have hne : c.table ≠ [] := fun he => by
    rw [hempty hfalse he] at hl
    cases hl
  obtain ⟨e, he, hlevel⟩ := (hclear hfalse).2 hne
  refine hno (h e he ?_)
  rw [hl] at hlevel
  revert hlevel
  cases e.severity <;> decide

/-- Settles O14: a body's effects keep both conditions, and the level follows latch and table. -/
theorem appliedFrameKeepsLatchAndCount : Obligations.AppliedFrameKeepsLatchAndCount := by
  refine fun c sender b => ⟨fun hlatch => ?latch, fun hcount => ?count⟩
  case latch =>
    have hkept : (c.apply sender b).latchCovers := by
      rw [apply_eq]
      exact applyBody_latchCovers sender b hlatch
    exact ⟨hkept, fun hnumbered => by rw [apply_level c sender b hnumbered, deriveLevel_eq_halt hkept]⟩
  case count =>
    rw [apply_eq]
    exact applyBody_countsSince sender b hcount

end Sys2Proof.Machine
end

section
/-! PROOFS. A settled ROSTER at the copy (R13 to R15, R95), the roster station (R84) and the roster frames it owes (R88 to R90,
R109). -/

namespace Sys2Proof.Machine

/-! ### LOSS creations (R13) -/

/-- The copy after the LOSS creations of a list of stations, one after another. -/
def Chassis.losses (c : Chassis) (sev : Severity) (settle : Word) (lost : List Addr) : Chassis :=
  lost.foldl (fun d a => d.arrive (lossEntry a sev settle)) c

theorem losses_cons (c : Chassis) (sev : Severity) (settle : Word) (a : Addr) (rest : List Addr) :
    c.losses sev settle (a :: rest) = (c.arrive (lossEntry a sev settle)).losses sev settle rest := rfl

theorem createLosses_some (c : Chassis) (lost : List Addr) (sev : Severity) (settle : Word) :
    c.createLosses lost (some sev) settle = c.losses sev settle lost := rfl

/-- One LOSS creation is an arrival: it coalesces, enters, evicts or is dropped. -/
theorem arrive_lossTaken (sev : Severity) (settle : Word) (a : Addr) (c : Chassis) :
    Spec.lossTaken sev settle a c (c.arrive (lossEntry a sev settle)) := by
  refine ⟨fun pre post x ht horigin hsource hn => ?held, fun hn => ⟨arrive_enters hn, fun hfull => ⟨?evicts, ?drops⟩⟩,
    arrive_offered c _, ?frame⟩
  case held =>
    have hx : (lossEntry a sev settle).same x = true := (same_iff _ _).2 ⟨horigin, hsource⟩
    obtain ⟨htable, hdropped, hhalt⟩ := arrive_coalesces ht hx hn
    exact ⟨_, htable, horigin, hsource, rfl, rfl, satAdd_toNat _ _, rfl, rfl, hdropped, hhalt⟩
  case evicts => exact fun pre post x ht hpre hpost hlow => arrive_evicts hn hfull ht hpre hpost hlow
  case drops => exact fun hlow => arrive_drops hn hfull hlow
  case frame =>
    rw [arrive_frame]
    exact ⟨rfl, rfl, rfl, rfl, rfl, rfl⟩

theorem losses_lossesTaken (sev : Severity) (settle : Word) (lost : List Addr) (c : Chassis) :
    Spec.lossesTaken sev settle lost c (c.losses sev settle lost) := by
  induction lost generalizing c with
  | nil => rfl
  | cons a rest ih => exact ⟨_, arrive_lossTaken sev settle a c, ih _⟩

/-- With room for all, and no entry for any of them yet, the LOSS entries stand at the end, in order. -/
theorem losses_table_of_room (sev : Severity) (settle : Word) {lost : List Addr} (hnodup : lost.Nodup) {c : Chassis}
    (hroom : c.table.length + lost.length ≤ 32) (hnew : ∀ x ∈ c.table, x.source = 32 → x.origin ∉ lost) :
    (c.losses sev settle lost).table = c.table ++ lost.map (lossEntry · sev settle) := by
  induction lost generalizing c with
  | nil => simp [Chassis.losses]
  | cons a rest ih =>
    obtain ⟨ha, hrest⟩ := List.nodup_cons.1 hnodup
    rw [List.length_cons] at hroom
    have hn : ∀ x ∈ c.table, x.apart (lossEntry a sev settle) := fun x hx ⟨ho, hs⟩ =>
      hnew x hx hs (by rw [ho]; exact List.mem_cons_self)
    obtain ⟨htable, -, -⟩ := arrive_enters hn (by omega)
    rw [losses_cons, ih hrest (by rw [htable, List.length_append, List.length_singleton]; omega), htable,
      List.append_assoc]
    · rfl
    · intro x hx hs
      rw [htable] at hx
      rcases List.mem_append.1 hx with hx | hx
      · exact fun hmem => hnew x hx hs (List.mem_cons_of_mem a hmem)
      · rw [List.mem_singleton.1 hx]
        exact ha

/-- What LOSS creations leave of the copy. -/
theorem createLosses_frame (c : Chassis) (lost : List Addr) (severity : Option Severity) (settle : Word) :
    c.createLosses lost severity settle = { c with
      table := (c.createLosses lost severity settle).table
      first := (c.createLosses lost severity settle).first
      sinceFirst := (c.createLosses lost severity settle).sinceFirst
      halt := (c.createLosses lost severity settle).halt
      dropped := (c.createLosses lost severity settle).dropped } :=
  createLosses_keeps
    (P := fun d => d = { c with
      table := d.table, first := d.first, sinceFirst := d.sinceFirst, halt := d.halt, dropped := d.dropped })
    (fun d e hd => by rw [arrive_frame, hd]) lost severity settle rfl

/-! ### A settled ROSTER at the copy (R15) -/

/-- The LOSS creations of a settled ROSTER, before the absent flags are set. -/
def Chassis.afterLosses (c : Chassis) (r : RosterBody) : Chassis :=
  (c.adopt r).createLosses (c.lostBy r) r.loss c.nextSettle

theorem apply_roster (c : Chassis) (sender : Addr) (r : RosterBody) :
    c.apply sender (.roster r) = { c.afterLosses r with
      table := (c.afterLosses r).table.map (fun x => { x with absent := !setHas r.members x.origin })
      settle := c.settle + 1
      level := (c.apply sender (.roster r)).level } := by
  simp only [Chassis.apply, Body.numbered, Chassis.applyBody, Chassis.applyRoster, Chassis.markAbsent,
    Chassis.nextSettle, Chassis.afterLosses, if_true]

theorem adopt_eq (c : Chassis) (r : RosterBody) : c.adopt r = { c with
    generation := r.generation
    records := recordsOf (fun a =>
      if setHas r.members a then some ⟨if setHas r.newMembers a then .new else .full, 0⟩ else none)
    dropLimit := r.dropLimit
    loss := r.loss } := by
  unfold Chassis.adopt
  rfl

theorem apply_roster_adopted (c : Chassis) (sender : Addr) (r : RosterBody) :
    (c.apply sender (.roster r)).generation = r.generation ∧ (c.apply sender (.roster r)).dropLimit = r.dropLimit
      ∧ (c.apply sender (.roster r)).loss = r.loss
      ∧ (c.apply sender (.roster r)).records = recordsOf (fun a =>
        if setHas r.members a then some ⟨if setHas r.newMembers a then .new else .full, 0⟩ else none) := by
  rw [apply_roster, Chassis.afterLosses, createLosses_frame, adopt_eq]
  exact ⟨rfl, rfl, rfl, rfl⟩

theorem afterLosses_of_none {c : Chassis} {r : RosterBody} (h : r.loss = none) : c.afterLosses r = c.adopt r := by
  rw [Chassis.afterLosses, h]
  rfl

theorem afterLosses_of_some {c : Chassis} {r : RosterBody} {sev : Severity} (h : r.loss = some sev) :
    c.afterLosses r = (c.adopt r).losses sev (c.settle + 1) (c.lostBy r) := by
  rw [Chassis.afterLosses, h, createLosses_some, Chassis.nextSettle]

/-- R13: the lost stations, in ascending order of address. -/
theorem lostBy_eq (c : Chassis) (r : RosterBody) :
    c.lostBy r = allAddrs.filter (fun a =>
      decide (setHas r.members a = false ∧ ∃ m, c.record a = some m ∧ m.state = .full)) := by
  refine List.filter_congr (fun a _ => ?_)
  cases hr : c.record a <;> cases setHas r.members a <;> simp

theorem allAddrs_nodup : allAddrs.Nodup := by decide

theorem mem_lostBy {c : Chassis} {r : RosterBody} {a : Addr} (h : a ∈ c.lostBy r) : setHas r.members a = false := by
  rw [lostBy_eq, List.mem_filter, decide_eq_true_eq] at h
  exact h.2.1

/-- Settles O15: adoption, LOSS creations (`losses_lossesTaken`), absent flags and the level, in the order of R15. -/
theorem rosterReplacesTheRosterAndCreatesLosses : Obligations.RosterReplacesTheRosterAndCreatesLosses := by
  intro c sender r lost hlost
  rw [← lostBy_eq] at hlost
  subst hlost
  have happly := apply_roster c sender r
  obtain ⟨hgeneration, hlimit, hloss, hrecords⟩ := apply_roster_adopted c sender r
  refine ⟨hgeneration, hlimit, hloss, apply_settle c sender _ rfl, record_of_records hrecords, ?absent,
    fun hnone => ?no_loss, fun sev hsev => ?losses, ?level, fun sev hsev hroom hnew => ?given⟩
  case absent =>
    intro x hx
    rw [happly] at hx
    obtain ⟨y, -, rfl⟩ := List.mem_map.1 hx
    rfl
  case no_loss =>
    rw [happly, afterLosses_of_none hnone, adopt_eq]
    exact ⟨rfl, rfl, rfl, rfl, rfl⟩
  case losses =>
    refine ⟨c.afterLosses r, ?_, happly⟩
    rw [afterLosses_of_some hsev, ← adopt_eq]
    exact losses_lossesTaken sev (c.settle + 1) (c.lostBy r) (c.adopt r)
  case level =>
    rw [apply_level c sender _ rfl]
    exact deriveLevel_levelOf _ _
  case given =>
    rw [happly, afterLosses_of_some hsev, losses_table_of_room sev (c.settle + 1)
      (by rw [lostBy_eq]; exact allAddrs_nodup.filter _) (by rwa [adopt_table]) (by rwa [adopt_table]), adopt_table,
      List.map_append, List.map_map]
    refine congrArg _ (List.map_congr_left (fun a ha => ?_))
    show ({ lossEntry a sev (c.settle + 1) with absent := !setHas r.members a } : Entry) = _
    rw [mem_lostBy ha]
    rfl

/-! ### The roster station (R84) -/

theorem mem_allAddrs (a : Addr) : a ∈ allAddrs := by revert a; decide

theorem allAddrs_ascending : allAddrs.Pairwise (· < ·) := by decide

/-- The first address of which a test holds is the lowest one. -/
theorem find_allAddrs_eq_some {p : Addr → Bool} {a : Addr} :
    allAddrs.find? p = some a ↔ p a = true ∧ ∀ b < a, ¬p b = true := by
  rw [List.find?_eq_some_iff_append]
  refine and_congr_right fun ha => ⟨?_, fun hlow => ?_⟩
  · rintro ⟨l, m, hlm, hl⟩ b hb
    have hsorted := allAddrs_ascending
    rw [hlm, List.pairwise_append, List.pairwise_cons] at hsorted
    obtain ⟨-, ⟨hm, -⟩, -⟩ := hsorted
    have hmem := mem_allAddrs b
    rw [hlm, List.mem_append, List.mem_cons] at hmem
    rcases hmem with hbl | rfl | hbm
    · simpa using hl b hbl
    · exact absurd hb (BitVec.lt_irrefl b)
    · exact absurd hb (BitVec.lt_asymm (hm b hbm))
  · obtain ⟨l, m, hlm⟩ := List.append_of_mem (mem_allAddrs a)
    refine ⟨l, m, hlm, fun b hb => ?_⟩
    have hsorted := allAddrs_ascending
    rw [hlm, List.pairwise_append] at hsorted
    simpa using hlow b (hsorted.2.2 b hb a List.mem_cons_self)

theorem find_allAddrs_eq_none {p : Addr → Bool} : allAddrs.find? p = none ↔ ∀ b, ¬p b = true := by
  simp [List.find?_eq_none, mem_allAddrs]

/-- The test of the search for a roster station. -/
def Chassis.eligible (c : Chassis) (a : Addr) : Bool :=
  (c.record a).any (fun m => decide (m.state = .full ∧ m.miss < c.dropLimit))

theorem eligible_iff (c : Chassis) (a : Addr) :
    c.eligible a = true ↔ ∃ m, c.record a = some m ∧ m.state = .full ∧ m.miss < c.dropLimit := by
  cases hr : c.record a <;> simp [Chassis.eligible, hr]

theorem not_eligible_iff (c : Chassis) (a : Addr) :
    ¬c.eligible a = true ↔ ∀ m, c.record a = some m → ¬(m.state = .full ∧ m.miss < c.dropLimit) := by
  simp [eligible_iff]

theorem suspect_eq (c : Chassis) (m : Member) : c.suspect m = !decide (m.miss < c.dropLimit) := by
  simp only [Chassis.suspect, ← decide_not, BitVec.not_lt]

theorem rosterStation_eq_find (c : Chassis) : c.rosterStation = allAddrs.find? c.eligible := by
  refine List.find?_congr (fun a _ => ?_)
  cases hr : c.record a with
  | none => simp [Chassis.eligible, hr]
  | some m => simp [Chassis.eligible, suspect_eq, hr]

/-- Settles O40: the search goes through the addresses in ascending order. -/
theorem rosterStationIsTheLowestFullMember : Obligations.RosterStationIsTheLowestFullMember := by
  refine ⟨fun c a => ?lowest, fun c => ?none⟩
  case lowest =>
    simp only [rosterStation_eq_find, find_allAddrs_eq_some, not_eligible_iff]
    exact and_congr (eligible_iff c a) ⟨fun h b m hb => h b hb m, fun h b hb m => h b m hb⟩
  case none => simp only [rosterStation_eq_find, find_allAddrs_eq_none, not_eligible_iff]

end Sys2Proof.Machine
end

section
/-! PROOFS. The bits of a frame (Tables 11-1 to 11-4): what a payload of each kind carries, when it reads good, and the two
checks (R47, R177). -/

namespace Sys2Proof.Machine

/-! ### Sets of stations -/

theorem setHas_and (x y : StationSet) (a : Addr) : setHas (x &&& y) a = (setHas x a && setHas y a) := by simp [setHas]
theorem setHas_or (x y : StationSet) (a : Addr) : setHas (x ||| y) a = (setHas x a || setHas y a) := by simp [setHas]
theorem setHas_not (x : StationSet) (a : Addr) : setHas (~~~x) a = !setHas x a := by simp [setHas, a.isLt]
theorem setHas_zero (a : Addr) : setHas 0 a = false := by simp [setHas]

theorem setHas_single (x a : Addr) : setHas (setSingle x) a = decide (a = x) := by
  have hx : ((BitVec.twoPow 16 x.toNat).getLsbD a.toNat = true) = (x.toNat = a.toNat) := by
    simp [BitVec.getLsbD_twoPow, x.isLt]
  rw [setHas, setSingle, Bool.eq_iff_iff, hx, decide_eq_true_eq, eq_comm, BitVec.toNat_inj]

/-- A set is the addresses it holds. -/
theorem set_ext {x y : StationSet} (h : ∀ a, setHas x a = setHas y a) : x = y :=
  BitVec.eq_of_getLsbD_eq fun i hi => by simpa [setHas, Nat.mod_eq_of_lt hi] using h (BitVec.ofNat 4 i)

theorem set_eq_zero_iff {x : StationSet} : x = 0 ↔ ∀ a, setHas x a = false :=
  ⟨fun h a => by rw [h, setHas_zero], fun h => set_ext fun a => by rw [h, setHas_zero]⟩

theorem setWithin_iff (x y : StationSet) : setWithin x y = true ↔ ∀ a, setHas x a = true → setHas y a = true := by
  rw [setWithin, beq_iff_eq]
  exact set_eq_zero_iff.trans (by simp [setHas_and, setHas_not])

theorem set_disjoint_iff (x y : StationSet) :
    x &&& y = 0 ↔ ∀ a, setHas x a = true → setHas y a = false :=
  set_eq_zero_iff.trans (by simp [setHas_and])

/-! ### Codes (Table 11-1) -/

theorem kindCode_eq (b : Body) : Spec.kindCode b = b.kind := by
  cases b with
  | notice n => cases n <;> rfl
  | _ => rfl

theorem severityCode_eq (s : Option Severity) : Spec.severityCode s = lossCode s := by
  cases s with
  | none => rfl
  | some s => cases s <;> rfl

theorem scopeCode_eq (s : Scope) : Spec.scopeCode s = s.code := by cases s <;> rfl

theorem severityOf_eq_iff (c : BitVec 2) (s : Option Severity) : severityOf c = s ↔ c = Spec.severityCode s := by
  rw [severityCode_eq, severityOf_eq]

/-! ### The checks (R177) -/

theorem shiftedIn_eq {w : Nat} (poly reg : BitVec w) (bits : List Bool) :
    Spec.shiftedIn poly reg bits = crc poly reg bits := by
  induction bits generalizing reg with
  | nil => rfl
  | cons b rest ih =>
    have hstep : (if reg.msb = b then reg <<< 1 else (reg <<< 1) ^^^ poly) = crcStep poly reg b := by
      unfold crcStep
      cases reg.msb <;> cases b <;> rfl
    rw [Spec.shiftedIn, ih, hstep]
    rfl

theorem frameCheckOf_eq (x : BitVec 106) : Spec.frameCheckOf x = frameCheck x := by
  rw [Spec.frameCheckOf, shiftedIn_eq, frameCheck, sendOrder]
  refine congrArg _ (List.map_congr_left fun i hi => ?_)
  rw [BitVec.getMsbD_eq_getLsbD, decide_eq_true (List.mem_range.1 hi), Bool.true_and]

/-! ### Payloads (R7, R12, R28, R94, R110) -/

theorem readReport_iff (p : PayloadBits) (r : Report) : readReport p = some r ↔
    Spec.carries p (.notice (.fault r)) ∧ Spec.wellFormed (.notice (.fault r)) := by
  simp only [Spec.carries, Spec.wellFormed, ← severityOf_eq_iff]
  unfold readReport
  obtain ⟨source, severity, occurrences, detail, number⟩ := r
  cases hsev : severityOf (p.extractLsb' 88 2) with
  | none => simp
  | some sev =>
    simp only [Option.ite_none_right_eq_some, Option.some.injEq, Report.mk.injEq]
    constructor
    · rintro ⟨hwf, rfl, rfl, rfl, rfl, rfl⟩
      exact ⟨⟨rfl, rfl, rfl, rfl, rfl⟩, hwf⟩
    · rintro ⟨⟨rfl, rfl, rfl, rfl, rfl⟩, hwf⟩
      exact ⟨hwf, rfl, rfl, rfl, rfl, rfl⟩

theorem readResolve_iff (p : PayloadBits) (source : BitVec 6) : readResolve p = some source ↔
    Spec.carries p (.notice (.resolve source)) ∧ Spec.wellFormed (.notice (.resolve source)) := by
  simp only [Spec.carries, Spec.wellFormed, readResolve, Option.ite_none_right_eq_some, Option.some.injEq]
  constructor
  · rintro ⟨hle, rfl⟩
    exact ⟨rfl, hle⟩
  · rintro ⟨rfl, hle⟩
    exact ⟨hle, rfl⟩

theorem readClear_iff (p : PayloadBits) (n : Notice) : readClear p = some n ↔
    ∃ scope origin reference, n = .clear scope origin reference ∧ Spec.carries p (.notice n) := by
  unfold readClear
  cases hscope : scopeOf (p.extractLsb' 94 2) with
  | none =>
    refine ⟨fun h => (nomatch h), ?_⟩
    rintro ⟨scope, origin, reference, rfl, hcode, -, -⟩
    rw [hcode, scopeCode_eq, scopeOf_code] at hscope
    cases hscope
  | some s =>
    have hcode := (scopeOf_eq_some _ s).1 hscope
    constructor
    · rintro ⟨⟩
      exact ⟨_, _, _, rfl, hcode.trans (scopeCode_eq s).symm, rfl, rfl⟩
    · rintro ⟨scope, origin, reference, rfl, hs, rfl, rfl⟩
      rw [hs, scopeCode_eq, scopeOf_code] at hscope
      cases hscope
      rfl

/-- The ROSTER content at the payload bits of Table 11-3. -/
def rosterAt (p : PayloadBits) : RosterBody :=
  { generation := p.extractLsb' 80 16, members := p.extractLsb' 64 16, departing := p.extractLsb' 48 16,
    newMembers := p.extractLsb' 32 16, admitted := if p.getLsbD 27 then some (p.extractLsb' 28 4) else none,
    dropLimit := p.extractLsb' 23 4, loss := severityOf (p.extractLsb' 21 2), entries := p.extractLsb' 15 6,
    withFirst := p.getLsbD 14 }

theorem readRoster_eq (p : PayloadBits) : readRoster p =
    if (rosterAt p).wellFormed = true ∧ (p.getLsbD 27 = true ∨ p.extractLsb' 28 4 = 0#4) then some (rosterAt p) else none :=
  rfl

theorem carries_roster_iff (p : PayloadBits) (r : RosterBody) : Spec.carries p (.roster r) ↔
    rosterAt p = r ∧ (p.getLsbD 27 = true ∨ p.extractLsb' 28 4 = 0#4) := by
  simp only [Spec.carries, ← severityOf_eq_iff]
  obtain ⟨generation, members, departing, newMembers, admitted, dropLimit, loss, entries, withFirst⟩ := r
  simp only [rosterAt, RosterBody.mk.injEq]
  constructor
  · rintro ⟨rfl, rfl, rfl, rfl, hsome, hnone, rfl, rfl, rfl, rfl⟩
    cases admitted with
    | none =>
      obtain ⟨hpresent, hfield⟩ := hnone rfl
      exact ⟨⟨rfl, rfl, rfl, rfl, by rw [hpresent]; rfl, rfl, rfl, rfl, rfl⟩, .inr hfield⟩
    | some a =>
      obtain ⟨hpresent, rfl⟩ := hsome a rfl
      exact ⟨⟨rfl, rfl, rfl, rfl, by rw [hpresent]; rfl, rfl, rfl, rfl, rfl⟩, .inl hpresent⟩
  · rintro ⟨⟨rfl, rfl, rfl, rfl, rfl, rfl, rfl, rfl, rfl⟩, hfield⟩
    cases hpresent : p.getLsbD 27 with
    | false =>
      have hzero := hfield.resolve_left (by rw [hpresent]; decide)
      exact ⟨rfl, rfl, rfl, rfl, fun a ha => absurd ha (by simp), fun _ => ⟨rfl, hzero⟩, rfl, rfl, rfl, rfl⟩
    | true => exact ⟨rfl, rfl, rfl, rfl, fun a ha => ⟨rfl, Option.some.inj ha⟩, fun hn => absurd hn (by simp), rfl, rfl, rfl, rfl⟩

theorem wellFormed_roster_iff (r : RosterBody) : r.wellFormed = true ↔ Spec.wellFormed (.roster r) := by
  simp only [RosterBody.wellFormed, Spec.wellFormed, Bool.and_eq_true, decide_eq_true_eq, set_disjoint_iff, setWithin_iff,
    and_assoc]
  refine and_congr_right fun _ => and_congr_right fun _ => and_congr_right fun _ => and_congr_right fun _ =>
    and_congr_right fun _ => and_congr_right fun _ => ?_
  cases r.admitted with
  | none => simp
  | some a => simp [and_assoc]

theorem readRoster_iff (p : PayloadBits) (r : RosterBody) : readRoster p = some r ↔
    Spec.carries p (.roster r) ∧ Spec.wellFormed (.roster r) := by
  rw [readRoster_eq, Option.ite_none_right_eq_some, Option.some.injEq, carries_roster_iff, ← wellFormed_roster_iff]
  constructor
  · rintro ⟨⟨hwf, hfield⟩, rfl⟩
    exact ⟨⟨rfl, hfield⟩, hwf⟩
  · rintro ⟨⟨rfl, hfield⟩, hwf⟩
    exact ⟨⟨hwf, hfield⟩, rfl⟩

theorem readSnap_iff (p : PayloadBits) (b : Body) : readSnap p = some b ↔
    ∃ index content, b = .snap index content ∧ Spec.carries p b ∧ Spec.wellFormed b := by
  have hguard (index : BitVec 6) (total : BitVec 6) : (index ≤ 33 ∧ (index ≠ 0 ∨ (1 ≤ total ∧ total ≤ 34))) ↔
      (index ≤ 33 ∧ (index = 0 → 1 ≤ total ∧ total ≤ 34)) := by rw [ne_eq, ← imp_iff_not_or]
  simp only [readSnap, hguard, Option.ite_none_right_eq_some, Option.some.injEq]
  constructor
  · rintro ⟨hwf, rfl⟩
    exact ⟨_, _, rfl, ⟨rfl, rfl⟩, hwf⟩
  · rintro ⟨index, content, rfl, ⟨rfl, rfl⟩, hwf⟩
    exact ⟨hwf, rfl⟩

/-! ### Bodies (R47) -/

theorem kind_of_readBody {kind : BitVec 3} {p : PayloadBits} {b : Body} (h : readBody kind p = some b) : kind = b.kind := by
  unfold readBody at h
  split at h
  · next hk => obtain ⟨r, -, rfl⟩ := Option.map_eq_some_iff.1 h; exact hk
  split at h
  · next hk => obtain ⟨n, -, rfl⟩ := Option.map_eq_some_iff.1 h; exact hk
  split at h
  · next hk =>
    obtain ⟨n, hn, rfl⟩ := Option.map_eq_some_iff.1 h
    obtain ⟨scope, origin, reference, rfl, -⟩ := (readClear_iff p n).1 hn
    exact hk
  split at h
  · next hk => cases h; exact hk
  split at h
  · next hk => cases h; exact hk
  split at h
  · next hk => obtain ⟨r, -, rfl⟩ := Option.map_eq_some_iff.1 h; exact hk
  split at h
  · next hk => obtain ⟨index, content, rfl, -⟩ := (readSnap_iff p b).1 h; exact hk
  · cases h

/-- A payload reads as a body of its kind exactly when it carries the body's fields and the body is well-formed. -/
theorem readBody_kind_iff (p : PayloadBits) (b : Body) :
    readBody b.kind p = some b ↔ Spec.carries p b ∧ Spec.wellFormed b := by
  cases b with
  | notice n =>
    cases n with
    | fault r =>
      rw [← readReport_iff]
      show (readReport p).map _ = _ ↔ _
      simp
    | resolve source =>
      rw [← readResolve_iff]
      show (readResolve p).map _ = _ ↔ _
      simp
    | clear scope origin reference =>
      have hread := readClear_iff p (.clear scope origin reference)
      show (readClear p).map Body.notice = _ ↔ _
      rw [Option.map_eq_some_iff]
      constructor
      · rintro ⟨_, hn, ⟨⟩⟩
        obtain ⟨_, _, _, -, hcarries⟩ := hread.1 hn
        exact ⟨hcarries, trivial⟩
      · rintro ⟨hcarries, -⟩
        exact ⟨_, hread.2 ⟨_, _, _, rfl, hcarries⟩, rfl⟩
    | leave => exact ⟨fun _ => ⟨trivial, trivial⟩, fun _ => rfl⟩
  | join => exact ⟨fun _ => ⟨trivial, trivial⟩, fun _ => rfl⟩
  | roster r =>
    rw [← readRoster_iff]
    show (readRoster p).map _ = _ ↔ _
    simp
  | snap index content =>
    show readSnap p = _ ↔ _
    rw [readSnap_iff]
    constructor
    · rintro ⟨_, _, -, h⟩
      exact h
    · exact fun h => ⟨_, _, rfl, h⟩

theorem readBody_iff (kind : BitVec 3) (p : PayloadBits) (b : Body) :
    readBody kind p = some b ↔ kind = b.kind ∧ Spec.carries p b ∧ Spec.wellFormed b := by
  constructor
  · intro h
    have hk := kind_of_readBody h
    rw [hk] at h
    exact ⟨hk, (readBody_kind_iff p b).1 h⟩
  · rintro ⟨rfl, h⟩
    exact (readBody_kind_iff p b).2 h

/-! ### Frames (Table 11-2) -/

theorem readFrame_iff (bits : BodyBits) (f : Frame) :
    readFrame bits = some f ↔ Spec.laidOut bits f ∧ Spec.wellFormed f.body := by
  obtain ⟨urgency, sender, body⟩ := f
  simp only [readFrame, Spec.laidOut, frameCheckOf_eq, kindCode_eq, Option.ite_none_right_eq_some, Option.map_eq_some_iff,
    readBody_iff, extract_extract _ _ _ _ _ (show 96 + 3 ≤ 106 by decide),
    extract_extract _ _ _ _ _ (show 0 + 96 ≤ 106 by decide), extract_extract _ _ _ _ _ (show 103 + 3 ≤ 106 by decide),
    extract_extract _ _ _ _ _ (show 99 + 4 ≤ 106 by decide), Frame.mk.injEq]
  constructor
  · rintro ⟨hcheck, b, ⟨hkind, hcarries, hwf⟩, rfl, rfl, rfl⟩
    exact ⟨⟨rfl, rfl, hkind, hcarries, hcheck.symm⟩, hwf⟩
  · rintro ⟨⟨rfl, rfl, hkind, hcarries, hcheck⟩, hwf⟩
    exact ⟨hcheck.symm, body, ⟨hkind, hcarries, hwf⟩, rfl, rfl, rfl⟩

theorem payload_carries (b : Body) : Spec.carries b.payload b := by
  cases b with
  | notice n =>
    cases n with
    | fault r =>
      obtain ⟨hsource, hseverity, hoccurrences, hdetail, hnumber⟩ := report_fields r
      exact ⟨hsource, hseverity.trans (severityCode_eq (some r.severity)).symm, hoccurrences, hdetail, hnumber⟩
    | resolve source => exact (leading_fields source 0#90).1
    | clear scope origin reference =>
      obtain ⟨hscope, horigin, hreference⟩ := clear_fields scope origin reference
      exact ⟨hscope.trans (scopeCode_eq scope).symm, horigin, hreference⟩
    | leave => trivial
  | join => trivial
  | roster r =>
    obtain ⟨hgeneration, hmembers, hdeparting, hnew, hadmitted, hpresent, hlimit, hloss, hentries, hfirst⟩ := roster_fields r
    refine ⟨hgeneration, hmembers, hdeparting, hnew, fun a ha => ?_, fun hnone => ?_, hlimit,
      hloss.trans (severityCode_eq r.loss).symm, hentries, hfirst⟩
    · exact ⟨hpresent.trans (by rw [ha]; rfl), hadmitted.trans (by rw [ha]; rfl)⟩
    · exact ⟨hpresent.trans (by rw [hnone]; rfl), hadmitted.trans (by rw [hnone]; rfl)⟩
  | snap index content => exact leading_fields index content

/-- The bits behind the fields are 0. -/
theorem append_zero_bit {n m : Nat} (x : BitVec n) {k : Nat} (h : k < m) : (x ++ 0#m).getLsbD k = false := by
  rw [bit_low _ _ _ h, BitVec.getLsbD_zero]

theorem payload_unused {b : Body} {k : Nat} (h : k < Spec.unused b) : b.payload.getLsbD k = false := by
  cases b with
  | notice n =>
    cases n with
    | fault r => exact append_zero_bit _ h
    | resolve source => exact append_zero_bit _ h
    | clear scope origin reference => exact append_zero_bit _ h
    | leave => exact BitVec.getLsbD_zero
  | join => exact BitVec.getLsbD_zero
  | roster r => exact append_zero_bit _ h
  | snap index content => exact absurd h (Nat.not_lt_zero k)

theorem bits_payload (f : Frame) : f.bits.extractLsb' 16 96 = f.body.payload := by
  obtain ⟨hcontent, -⟩ := bits_fields f
  obtain ⟨-, -, -, hpayload⟩ := content_fields f
  rw [← hpayload, ← hcontent, extract_extract _ _ _ _ _ (by decide)]

theorem bits_laidOut (f : Frame) : Spec.laidOut f.bits f := by
  obtain ⟨hcontent, hcheck⟩ := bits_fields f
  obtain ⟨hurgency, hsender, hkind, -⟩ := content_fields f
  rw [← hcontent, extract_extract _ _ _ _ _ (by decide)] at hurgency hsender hkind
  refine ⟨hurgency, hsender, by rw [kindCode_eq]; exact hkind, ?_, ?_⟩
  · rw [bits_payload]
    exact payload_carries f.body
  · rw [hcheck, hcontent, frameCheckOf_eq]

/-! ### SNAP fields (Table 11-3) -/

theorem readHeader_iff (content : BitVec 90) (h : Header) : readHeader content = h ↔
    content.extractLsb' 84 6 = h.total ∧ content.extractLsb' 52 32 = h.settle ∧ content.getLsbD 51 = h.halt
      ∧ content.extractLsb' 35 16 = h.dropped ∧ content.extractLsb' 19 16 = h.sinceFirst := by
  obtain ⟨total, settle, halt, dropped, sinceFirst⟩ := h
  exact iff_of_eq (Header.mk.injEq ..)

theorem readFirst_iff (content : BitVec 90) (f : First) : readFirst content = some f ↔
    content.extractLsb' 86 4 = f.origin ∧ content.extractLsb' 80 6 = f.source
      ∧ content.extractLsb' 78 2 = Spec.severityCode (some f.severity) ∧ content.extractLsb' 46 32 = f.settle
      ∧ content.extractLsb' 14 32 = f.detail ∧ f.source ≤ 32 := by
  simp only [← severityOf_eq_iff]
  unfold readFirst
  obtain ⟨origin, source, severity, settle, detail⟩ := f
  cases hsev : severityOf (content.extractLsb' 78 2) with
  | none => simp
  | some sev =>
    simp only [Option.ite_none_right_eq_some, Option.some.injEq, First.mk.injEq]
    constructor
    · rintro ⟨hwf, rfl, rfl, rfl, rfl, rfl⟩
      exact ⟨rfl, rfl, rfl, rfl, rfl, hwf⟩
    · rintro ⟨rfl, rfl, rfl, rfl, rfl, hwf⟩
      exact ⟨hwf, rfl, rfl, rfl, rfl, rfl⟩

theorem readEntry_iff (content : BitVec 90) (e : Entry) : readEntry content = some e ↔
    content.extractLsb' 86 4 = e.origin ∧ content.extractLsb' 80 6 = e.source
      ∧ content.extractLsb' 78 2 = Spec.severityCode (some e.severity) ∧ content.extractLsb' 70 8 = e.occurrences
      ∧ content.extractLsb' 38 32 = e.firstSettle ∧ content.extractLsb' 6 32 = e.detail
      ∧ content.getLsbD 5 = e.absent ∧ e.source ≤ 32 ∧ e.occurrences ≠ 0 := by
  simp only [← severityOf_eq_iff]
  unfold readEntry
  obtain ⟨origin, source, severity, firstSettle, occurrences, detail, absent⟩ := e
  cases hsev : severityOf (content.extractLsb' 78 2) with
  | none => simp
  | some sev =>
    simp only [Option.ite_none_right_eq_some, Option.some.injEq, Entry.mk.injEq]
    constructor
    · rintro ⟨hwf, rfl, rfl, rfl, rfl, rfl, rfl, rfl⟩
      exact ⟨rfl, rfl, rfl, rfl, rfl, rfl, rfl, hwf⟩
    · rintro ⟨rfl, rfl, rfl, rfl, rfl, rfl, rfl, hwf⟩
      exact ⟨hwf, rfl, rfl, rfl, rfl, rfl, rfl, rfl⟩

/-- The echo bits in the order they are sent, slot 0 first. -/
theorem echoBits_eq (echo : StationSet) : echoBits echo = (List.range 16).map (fun n => !echo.getLsbD n) := rfl

/-- Settles O6: built bits carry their frame (`bits_laidOut`), and bits read as a frame exactly when they carry it with a good
check and a well-formed body (`readFrame_iff`). -/
theorem frameBodiesReadBack : Obligations.FrameBodiesReadBack := by
  refine ⟨fun f => ⟨bits_laidOut f, fun k hk => ?unused, fun hwf => (readFrame_iff _ _).2 ⟨bits_laidOut f, hwf⟩⟩,
    readFrame_iff, ⟨fun echo => ?check, by decide +kernel, fun _ _ => rfl, setWithin_iff⟩,
    fun content => ⟨readHeader_iff content, readFirst_iff content, readEntry_iff content⟩⟩
  case unused =>
    rw [bits_payload]
    exact payload_unused hk
  case check =>
    rw [shiftedIn_eq, ← echoBits_eq]
    rfl

end Sys2Proof.Machine
end

section
/-! PROOFS. Port transactions and their bytes (Tables 11-5, 11-6); what the roster station owes (R88 to R90), and the content of
each SNAP (R109). -/

namespace Sys2Proof.Machine

/-! ### Transactions (R150, R178) -/

theorem encode_of_decodeStationItem {item : Byte} {rest : List Byte} {i : Instr} (h : decodeStationItem item rest = some i) :
    encodeTransaction i = some (0x03#8 :: item :: rest) ∧ i.wf = true := by
  unfold decodeStationItem at h
  split_ifs at h <;> (cases h; subst item; exact ⟨rfl, rfl⟩)

theorem encode_of_decodeSourceItem {source item : Byte} {rest : List Byte} {i : Instr}
    (h : decodeSourceItem source item rest = some i) :
    encodeTransaction i = some (0x04#8 :: source :: item :: rest) ∧ i.wf = true := by
  unfold decodeSourceItem at h
  split_ifs at h <;> (cases h; subst item; exact ⟨rfl, rfl⟩)

theorem decodeStationItem_eq_none (item : Byte) (rest : List Byte) :
    decodeStationItem item rest = none ↔ 0x06#8 < item := by
  unfold decodeStationItem
  split_ifs
  case neg => exact iff_of_true rfl (by bv_omega)
  all_goals exact iff_of_false (fun h => nomatch h) (by subst item; decide)

theorem decodeSourceItem_eq_none (source item : Byte) (rest : List Byte) :
    decodeSourceItem source item rest = none ↔ 0x03#8 < item := by
  unfold decodeSourceItem
  split_ifs
  case neg => exact iff_of_true rfl (by bv_omega)
  all_goals exact iff_of_false (fun h => nomatch h) (by subst item; decide)

theorem decodeCode_of_high {code : Byte} (rest : List Byte) (h : 0x11#8 < code) : decodeCode code rest = none := by
  have hne (k : Byte) (hk : k ≤ 0x11#8) : code ≠ k := fun he => by bv_omega
  unfold decodeCode
  iterate 17 rw [if_neg (hne _ (by decide))]

/-- Table 11-5: the codes with items, the codes that name no command, and the others. -/
theorem code_cases (code : Byte) : code = 0x03#8 ∨ code = 0x04#8 ∨ code = 0x00#8 ∨ 0x11#8 < code
    ∨ code = 0x01#8 ∨ code = 0x02#8 ∨ code = 0x05#8 ∨ code = 0x06#8 ∨ code = 0x07#8 ∨ code = 0x08#8 ∨ code = 0x09#8
    ∨ code = 0x0A#8 ∨ code = 0x0B#8 ∨ code = 0x0C#8 ∨ code = 0x0D#8 ∨ code = 0x0E#8 ∨ code = 0x0F#8 ∨ code = 0x10#8
    ∨ code = 0x11#8 := by
  bv_omega

/-- What reading a code and its bytes gives: a row with those bytes, or nothing where they spell no row. -/
def ReadsBack (bytes : List Byte) : Option Instr → Prop
  | some i => encodeTransaction i = some bytes ∧ i.wf = true ∧ spellsNoRow bytes = false
  | none => spellsNoRow bytes = true

theorem decodeStationItem_readsBack (item : Byte) (rest : List Byte) :
    ReadsBack (0x03#8 :: item :: rest) (decodeStationItem item rest) := by
  cases h : decodeStationItem item rest with
  | none => exact decide_eq_true ((decodeStationItem_eq_none item rest).1 h)
  | some i =>
    obtain ⟨hbytes, hwf⟩ := encode_of_decodeStationItem h
    exact ⟨hbytes, hwf, decide_eq_false fun hlt => by rw [(decodeStationItem_eq_none item rest).2 hlt] at h; cases h⟩

theorem decodeSourceItem_readsBack (source item : Byte) (rest : List Byte) :
    ReadsBack (0x04#8 :: source :: item :: rest) (decodeSourceItem source item rest) := by
  cases h : decodeSourceItem source item rest with
  | none => exact decide_eq_true ((decodeSourceItem_eq_none source item rest).1 h)
  | some i =>
    obtain ⟨hbytes, hwf⟩ := encode_of_decodeSourceItem h
    exact ⟨hbytes, hwf, decide_eq_false fun hlt => by rw [(decodeSourceItem_eq_none source item rest).2 hlt] at h; cases h⟩

/-- Code by code: the row that a code and its bytes name has those bytes, and they name none where they spell no row. -/
theorem decodeCode_readsBack (code : Byte) (rest : List Byte) : ReadsBack (code :: rest) (decodeCode code rest) := by
  rcases code_cases code with rfl | rfl | rfl | hhigh | rfl | rfl | rfl | rfl | rfl | rfl | rfl | rfl | rfl | rfl | rfl
    | rfl | rfl | rfl | rfl
  · cases rest with
    | nil => rfl
    | cons item more => exact decodeStationItem_readsBack item more
  · match rest with
    | [] => rfl
    | [_] => rfl
    | source :: item :: more => exact decodeSourceItem_readsBack source item more
  · rfl
  · have hne (k : Byte) (hk : k ≤ 0x11#8) : code ≠ k := fun he => by bv_omega
    rw [decodeCode_of_high rest hhigh]
    show spellsNoRow (code :: rest) = true
    unfold spellsNoRow
    dsimp only
    rw [if_neg (hne 0x03#8 (by decide)), if_neg (hne 0x04#8 (by decide)), decide_eq_true hhigh, Bool.or_true]
  all_goals exact ⟨rfl, rfl, rfl⟩

theorem decodeTransaction_cons (code : Byte) (rest : List Byte) :
    decodeTransaction (code :: rest) = (decodeCode code rest).getD (.commandCodeNamesNoCommand (code :: rest)) := rfl

/-- Settles O7: the last row carries exactly the bytes that spell no other (`decodeCode_readsBack`). -/
theorem transactionsReadBack : Obligations.TransactionsReadBack := by
  refine ⟨fun i bytes hwf h => ?reads, fun bytes => ?writes⟩
  case reads =>
    cases i with
    | commandCodeNamesNoCommand b =>
      obtain rfl : b = bytes := Option.some.inj h
      cases b with
      | nil => rfl
      | cons code rest =>
        have hread := decodeCode_readsBack code rest
        rw [decodeTransaction_cons]
        cases hd : decodeCode code rest with
        | none => rfl
        | some i =>
          rw [hd] at hread
          obtain ⟨-, -, hspells⟩ := hread
          exact absurd (hspells.symm.trans hwf) Bool.false_ne_true
    | _ => cases h <;> rfl
  case writes =>
    cases bytes with
    | nil => exact ⟨rfl, rfl⟩
    | cons code rest =>
      have hread := decodeCode_readsBack code rest
      rw [decodeTransaction_cons]
      cases hd : decodeCode code rest with
      | none =>
        rw [hd] at hread
        exact ⟨rfl, hread⟩
      | some i =>
        rw [hd] at hread
        obtain ⟨hbytes, hwf, -⟩ := hread
        exact ⟨hbytes, hwf⟩

/-! ### What the roster station owes (R88) -/

theorem setHas_mapWhere (c : Chassis) (p : Member → Bool) (a : Addr) :
    setHas (c.mapWhere p) a = true ↔ ∃ m, c.record a = some m ∧ p m = true := by
  rw [Chassis.mapWhere, setHas_setCollect]
  cases c.record a <;> simp

theorem setHas_map_iff (c : Chassis) (a : Addr) : setHas c.map a = true ↔ ∃ m, c.record a = some m := by
  rw [setHas_map, Option.isSome_iff_exists]

theorem setHas_inState (c : Chassis) (st : MemberState) (a : Addr) :
    setHas (c.inState st) a = true ↔ ∃ m, c.record a = some m ∧ m.state = st := by
  simp [Chassis.inState, setHas_mapWhere]

theorem setHas_suspects (c : Chassis) (a : Addr) :
    setHas c.suspects a = true ↔ ∃ m, c.record a = some m ∧ c.dropLimit ≤ m.miss := by
  simp [Chassis.suspects, setHas_mapWhere, Chassis.suspect]

/-- R89: the members that a ROSTER without an admission leaves out. -/
def Chassis.outgoing (c : Chassis) : StationSet := c.suspects ||| c.inState .departing

theorem setHas_outgoing (c : Chassis) (a : Addr) :
    setHas c.outgoing a = true ↔ ∃ m, c.record a = some m ∧ (c.dropLimit ≤ m.miss ∨ m.state = .departing) := by
  rw [Chassis.outgoing, setHas_or, Bool.or_eq_true, setHas_suspects, setHas_inState, ← exists_or]
  exact exists_congr fun m => and_or_left.symm

theorem outgoing_eq_zero_iff (c : Chassis) : c.outgoing = 0 ↔ c.suspects = 0 ∧ c.inState .departing = 0 := by
  simp only [set_eq_zero_iff, Chassis.outgoing, setHas_or, Bool.or_eq_false_iff, forall_and]

/-- R88, R89: with a member to remove, the ROSTER that removes them is owed. -/
theorem rosterOwed_of_outgoing {c : Chassis} (d : Duties) (h : c.outgoing ≠ 0) :
    c.rosterOwed d = some (.roster (c.removingRoster c.outgoing)) := by
  unfold Chassis.rosterOwed
  split
  · rfl
  · next hs =>
    have hzero : c.suspects = 0 := not_not.1 hs
    have hout : c.outgoing = c.inState .departing := by rw [Chassis.outgoing, hzero]; exact BitVec.zero_or
    rw [if_pos (by rwa [← hout]), hout]

/-- A member of the copy that a set does not name. -/
theorem member_not_outgoing {c : Chassis} {a : Addr} {m : Member} (h : c.record a = some m) :
    (!setHas c.outgoing a) = true ↔ m.miss < c.dropLimit ∧ m.state ≠ .departing := by
  rw [Bool.not_eq_true', ← Bool.not_eq_true, setHas_outgoing]
  simp [h]

theorem removingRoster_members (c : Chassis) (a : Addr) : setHas (c.removingRoster c.outgoing).members a = true ↔
    ∃ m, c.record a = some m ∧ m.miss < c.dropLimit ∧ m.state ≠ .departing := by
  show setHas (c.map &&& ~~~c.outgoing) a = true ↔ _
  rw [setHas_and, setHas_not, Bool.and_eq_true, setHas_map_iff, ← exists_and_right]
  exact exists_congr fun m => and_congr_right fun hm => member_not_outgoing hm

theorem removingRoster_departing (c : Chassis) (a : Addr) : setHas (c.removingRoster c.outgoing).departing a = true ↔
    ∃ m, c.record a = some m ∧ m.state = .departing := by
  show setHas (c.outgoing &&& c.inState .departing) a = true ↔ _
  rw [setHas_and, Bool.and_eq_true, ← setHas_inState]
  exact and_iff_right_of_imp fun h => by rw [Chassis.outgoing, setHas_or, h, Bool.or_true]

theorem removingRoster_newMembers (c : Chassis) (a : Addr) : setHas (c.removingRoster c.outgoing).newMembers a = true ↔
    ∃ m, c.record a = some m ∧ m.miss < c.dropLimit ∧ m.state = .new := by
  show setHas (c.inState .new &&& ~~~c.outgoing) a = true ↔ _
  rw [setHas_and, setHas_not, Bool.and_eq_true, setHas_inState, ← exists_and_right]
  refine exists_congr fun m => ?_
  rw [and_assoc]
  refine and_congr_right fun hm => ?_
  rw [member_not_outgoing hm, and_comm, and_assoc]
  refine and_congr_right fun _ => and_iff_right_of_imp fun hnew => by rw [hnew]; decide

theorem rosterOwed_snap {c : Chassis} {d : Duties} {q : Sequencer} (h : c.outgoing = 0) (hq : d.sequencer = some q) :
    c.rosterOwed d = some (.snap q.next (c.snapContent q.next.toNat)) := by
  obtain ⟨hs, hd⟩ := (outgoing_eq_zero_iff c).1 h
  rw [Chassis.rosterOwed, if_neg (not_not.2 hs), if_neg (not_not.2 hd), hq]

theorem rosterOwed_admission {c : Chassis} {d : Duties} (h : c.outgoing = 0) (hq : d.sequencer = none) :
    c.rosterOwed d = d.list.head?.map (fun a => .roster (c.admittingRoster a)) := by
  obtain ⟨hs, hd⟩ := (outgoing_eq_zero_iff c).1 h
  rw [Chassis.rosterOwed, if_neg (not_not.2 hs), if_neg (not_not.2 hd), hq]
  cases d.list <;> rfl

theorem admittingRoster_members (c : Chassis) (x a : Addr) :
    setHas (c.admittingRoster x).members a = true ↔ c.record a ≠ none ∨ a = x := by
  show setHas (c.map ||| setSingle x) a = true ↔ _
  rw [setHas_or, Bool.or_eq_true, setHas_map, setHas_single, decide_eq_true_eq, Option.isSome_iff_ne_none]

theorem admittingRoster_newMembers (c : Chassis) (x a : Addr) :
    setHas (c.admittingRoster x).newMembers a = true ↔ (∃ m, c.record a = some m ∧ m.state = .new) ∨ a = x := by
  show setHas (c.inState .new ||| setSingle x) a = true ↔ _
  rw [setHas_or, Bool.or_eq_true, setHas_inState, setHas_single, decide_eq_true_eq]

/-! ### The content of a SNAP (R109) -/

theorem readFirst_content {f : First} (h : f.source ≤ 32) : readFirst f.content = some f := by
  obtain ⟨horigin, hsource, hseverity, hsettle, hdetail⟩ := first_fields f
  exact (readFirst_iff _ f).2
    ⟨horigin, hsource, hseverity.trans (severityCode_eq (some f.severity)).symm, hsettle, hdetail, h⟩

theorem readEntry_content {e : Entry} (h : e.source ≤ 32) (hocc : e.occurrences ≠ 0) : readEntry e.content = some e := by
  obtain ⟨horigin, hsource, hseverity, hoccurrences, hsettle, hdetail, habsent⟩ := entry_fields e
  exact (readEntry_iff _ e).2 ⟨horigin, hsource, hseverity.trans (severityCode_eq (some e.severity)).symm, hoccurrences,
    hsettle, hdetail, habsent, h, hocc⟩

/-- The unused bits behind the fields are 0. -/
theorem extract_append_zero {n m : Nat} (x : BitVec n) : (x ++ 0#m).extractLsb' 0 m = 0 := by
  rw [extract_low _ _ _ _ (Nat.zero_add m).le, extract_all]
  rfl

theorem snapContent_first {c : Chassis} {f : First} (h : c.first = some f) : c.snapContent 1 = f.content := by
  simp [Chassis.snapContent, h]

/-- The entries stand behind header and first record, in the order of the table. -/
theorem snapContent_entry {c : Chassis} {i : Nat} {e : Entry} (h : c.table[i]? = some e) :
    c.snapContent (i + 1 + c.first.isSome.toNat) = e.content := by
  cases hf : c.first <;> simp [Chassis.snapContent, hf, h]

theorem header_total_toNat {c : Chassis} (h : c.table.length ≤ 32) :
    c.header.total.toNat = 1 + c.first.isSome.toNat + c.table.length := by
  have hlen : (BitVec.ofNat 6 c.table.length).toNat = c.table.length := by
    rw [BitVec.toNat_ofNat, Nat.mod_eq_of_lt (by omega)]
  rw [Chassis.header, snapTotal_toNat _ _ (by omega), hlen]

/-- Settles O41: what is owed splits on a member to remove, then on the sequencer, then on the list; a SNAP's content is that of
the copy's header, first record or entry. -/
theorem rosterFramesOwed : Obligations.RosterFramesOwed := by
  refine ⟨fun c d => ⟨fun hex => ?removing, fun hall => ?idle⟩, fun c hlen => ⟨?header, ?header_unused, fun f hf => ?first,
    fun i e he => ?entry⟩⟩
  case removing =>
    obtain ⟨a, m, hm, hout⟩ := hex
    have hne : c.outgoing ≠ 0 := fun hzero => by
      have := (setHas_outgoing c a).2 ⟨m, hm, hout⟩
      rw [hzero, setHas_zero] at this
      cases this
    exact ⟨_, rosterOwed_of_outgoing d hne, removingRoster_members c, removingRoster_departing c, removingRoster_newMembers c,
      rfl, rfl, rfl, rfl, rfl, rfl⟩
  case idle =>
    have hzero : c.outgoing = 0 := set_eq_zero_iff.2 fun a => by
      rw [← Bool.not_eq_true, setHas_outgoing]
      rintro ⟨m, hm, hout⟩
      obtain ⟨hmiss, hstate⟩ := hall a m hm
      exact hout.elim (BitVec.not_le.2 hmiss) hstate
    refine ⟨fun q hq => ?_, fun x rest hq hl => ⟨c.admittingRoster x, ?_, admittingRoster_members c x, rfl,
      admittingRoster_newMembers c x, rfl, rfl, rfl, rfl, rfl, rfl⟩, fun hq hl => ?_⟩
    · exact rosterOwed_snap hzero hq
    · rw [rosterOwed_admission hzero hq, hl]
      rfl
    · rw [rosterOwed_admission hzero hq, hl]
      rfl
  case header => exact ⟨c.header.total, header_total_toNat hlen, header_fields c.header⟩
  case header_unused => exact extract_append_zero _
  case first =>
    rw [snapContent_first hf]
    exact ⟨readFirst_content, extract_append_zero _⟩
  case entry =>
    rw [snapContent_entry he]
    exact ⟨readEntry_content, extract_append_zero _⟩

end Sys2Proof.Machine
end

section
/-! PROOFS. The Source Monitor's parts, what a transaction has clocked out at an edge of RESET, and the values of every block
at power-on, board reset and release (chapters 7, 9 and 10). -/

namespace Sys2Proof.Machine

/-! ### The parts of the Source Monitor -/

theorem source_setSource (m : Monitor) (n k : Fin 32) (x : Source) :
    (m.setSource n x).source k = if k = n then x else m.source k := by
  simp only [Monitor.source, Monitor.setSource, Vector.getElem_set, Fin.val_inj, eq_comm]

@[simp] theorem source_setSource_same (m : Monitor) (n : Fin 32) (x : Source) : (m.setSource n x).source n = x := by
  rw [source_setSource, if_pos rfl]

@[simp] theorem setSource_source_same (m : Monitor) (n : Fin 32) : m.setSource n (m.source n) = m := by
  simp [Monitor.setSource, Monitor.source]

@[simp] theorem setSource_lines (m : Monitor) (n : Fin 32) (x : Source) : (m.setSource n x).lines = m.lines := rfl
@[simp] theorem setSource_fin (m : Monitor) (n : Fin 32) (x : Source) : (m.setSource n x).fin = m.fin := rfl

theorem line_setLine (m : Monitor) (n k : Fin 24) (l : Line) :
    (m.setLine n l).line k = if k = n then l else m.line k := by
  simp only [Monitor.line, Monitor.setLine, Vector.getElem_set, Fin.val_inj, eq_comm]

@[simp] theorem setLine_sources (m : Monitor) (n : Fin 24) (l : Line) : (m.setLine n l).sources = m.sources := rfl
@[simp] theorem setLine_fin (m : Monitor) (n : Fin 24) (l : Line) : (m.setLine n l).fin = m.fin := rfl

/-! ### The Source Monitor through notices and assertions -/

theorem displaced_monitor (i : Item) (s : State) : (s.displaced i).monitor = s.monitor := by
  unfold State.displaced
  split <;> rfl

theorem answered_monitor (a : Answer) (s : State) : (s.answered a).monitor = s.monitor := by
  unfold State.answered
  split
  · exact displaced_monitor _ _
  · rfl

theorem takeFault_monitor (r : Report) (linked : Bool) (s : State) : (s.takeFault r linked).monitor = s.monitor := by
  have h := answered_monitor (s.queue.offerFault r linked) s
  unfold State.takeFault
  dsimp only
  split
  · split <;> exact h
  · split <;> exact h

theorem raiseFault_monitor (n : Fin 32) (severity : Severity) (detail : Word) (s : State) :
    (s.raiseFault n severity detail).monitor = s.monitor := by
  rw [State.raiseFault, takeFault_monitor, State.setCauseIf_monitor, State.withLog_monitor]

/-- An assertion changes the Source Monitor in its source alone. -/
theorem assertSource_monitor (n : Fin 32) (detail : Word) (s : State) :
    (s.assertSource n detail).monitor = s.monitor.setSource n (s.monitor.source n).asserted.1 := by
  unfold State.assertSource
  dsimp only
  split
  · exact raiseFault_monitor _ _ _ _
  · rfl

theorem assertSource_line (n : Fin 32) (detail : Word) (s : State) (k : Fin 24) :
    (s.assertSource n detail).monitor.line k = s.monitor.line k := by
  rw [assertSource_monitor]
  rfl

theorem assertSource_fin (n : Fin 32) (detail : Word) (s : State) : (s.assertSource n detail).monitor.fin = s.monitor.fin := by
  rw [assertSource_monitor, setSource_fin]

/-! ### Watching lines (R124) -/

theorem active_iff (m : Monitor) (n : Fin 24) :
    m.active n = true ↔ m.fin.getLsbD n.val = (m.line n).polarity.activeLevel := by
  rw [Monitor.active, beq_iff_eq]

theorem active_eq_false_iff (m : Monitor) (n : Fin 24) :
    m.active n = false ↔ m.fin.getLsbD n.val ≠ (m.line n).polarity.activeLevel := by
  rw [← Bool.not_eq_true, active_iff]

theorem takeLine_line (n k : Fin 24) (s : State) : (s.takeLine n).monitor.line k
    = if k = n then { s.monitor.line n with tracker := .held, timer := none } else s.monitor.line k := by
  rw [State.takeLine, assertSource_line, State.withMonitor_monitor, line_setLine]

theorem takeLine_fin (n : Fin 24) (s : State) : (s.takeLine n).monitor.fin = s.monitor.fin := by
  rw [State.takeLine, assertSource_fin, State.withMonitor_monitor, setLine_fin]

theorem watchLine_of_inactive {s : State} {n : Fin 24} (h : s.monitor.active n = false) : s.watchLine n
    = s.withMonitor (s.monitor.setLine n { s.monitor.line n with tracker := .inactive, timer := none }) := by
  rw [State.watchLine, h, if_neg Bool.false_ne_true]

theorem watchLine_of_edge {s : State} {n : Fin 24} (h : s.monitor.active n = true) (hm : (s.monitor.line n).mode = .edge) :
    s.watchLine n = s.withMonitor (s.monitor.setLine n { s.monitor.line n with tracker := .held, timer := none }) := by
  rw [State.watchLine, if_pos h, hm]

theorem watchLine_of_level {s : State} {n : Fin 24} (h : s.monitor.active n = true) (hm : (s.monitor.line n).mode = .level) :
    s.watchLine n = s.startLine n := by
  rw [State.watchLine, if_pos h, hm]

theorem startLine_of_zero {s : State} (n : Fin 24) (h : s.items.qualifyTime = 0) : s.startLine n = s.takeLine n := by
  rw [State.startLine, if_pos h]

theorem startLine_of_ne_zero {s : State} (n : Fin 24) (h : s.items.qualifyTime ≠ 0) : s.startLine n
    = s.withMonitor (s.monitor.setLine n
        { s.monitor.line n with tracker := .qualifying, timer := some s.items.qualifyTime }) := by
  rw [State.startLine, if_neg h]

theorem mode_cases (m : Mode) : m = .edge ∨ m = .level := by cases m <;> decide

/-- The line on which watching begins is as R124 says; the others and the levels stay. -/
theorem watchLine_monitor (n : Fin 24) (s : State) : (s.watchLine n).monitor.fin = s.monitor.fin
    ∧ ∀ k, (s.watchLine n).monitor.line k
      = if k = n then Spec.watched s.items.qualifyTime (s.monitor.fin.getLsbD n.val) (s.monitor.line n)
        else s.monitor.line k := by
  cases ha : s.monitor.active n with
  | false =>
    rw [watchLine_of_inactive ha, Spec.watched, if_neg ((active_eq_false_iff _ _).1 ha)]
    exact ⟨rfl, fun k => line_setLine _ _ _ _⟩
  | true =>
    rw [Spec.watched, if_pos ((active_iff _ _).1 ha)]
    rcases mode_cases (s.monitor.line n).mode with hm | hm
    · rw [watchLine_of_edge ha hm, if_pos (Or.inl hm)]
      exact ⟨rfl, fun k => line_setLine _ _ _ _⟩
    · rw [watchLine_of_level ha hm]
      by_cases hq : s.items.qualifyTime = 0
      · rw [startLine_of_zero n hq, if_pos (Or.inr hq)]
        exact ⟨takeLine_fin n s, fun k => takeLine_line n k s⟩
      · rw [startLine_of_ne_zero n hq, if_neg (by rw [hm]; exact not_or.2 ⟨nofun, hq⟩)]
        exact ⟨rfl, fun k => line_setLine _ _ _ _⟩

/-- With a qualify time, no assertion is taken as watching begins. -/
theorem watchLine_of_qualifyTime {s : State} (n : Fin 24) (hq : s.items.qualifyTime ≠ 0) :
    ∃ l, s.watchLine n = s.withMonitor (s.monitor.setLine n l) := by
  cases ha : s.monitor.active n with
  | false => exact ⟨_, watchLine_of_inactive ha⟩
  | true =>
    cases hm : (s.monitor.line n).mode with
    | edge => exact ⟨_, watchLine_of_edge ha hm⟩
    | level => exact ⟨_, (watchLine_of_level ha hm).trans (startLine_of_ne_zero n hq)⟩

/-- Watching begins on the lines of a list. -/
def State.watchEach (l : List (Fin 24)) (s : State) : State := l.foldl (fun t n => t.watchLine n) s

theorem watchAll_eq (fin : BitVec 24) (s : State) :
    s.watchAll fin = (s.withMonitor { s.monitor with fin := fin }).watchEach (List.finRange 24) := rfl

theorem watchEach_cons (n : Fin 24) (l : List (Fin 24)) (s : State) :
    s.watchEach (n :: l) = (s.watchLine n).watchEach l := rfl

theorem watchEach_monitor {l : List (Fin 24)} (hnodup : l.Nodup) (s : State) : (s.watchEach l).monitor.fin = s.monitor.fin
    ∧ ∀ k, (s.watchEach l).monitor.line k
      = if k ∈ l then Spec.watched s.items.qualifyTime (s.monitor.fin.getLsbD k.val) (s.monitor.line k)
        else s.monitor.line k := by
  induction l generalizing s with
  | nil => exact ⟨rfl, fun k => rfl⟩
  | cons n rest ih =>
    obtain ⟨hn, hrest⟩ := List.nodup_cons.1 hnodup
    obtain ⟨hfin, hline⟩ := watchLine_monitor n s
    obtain ⟨ihfin, ihline⟩ := ih hrest (s.watchLine n)
    refine ⟨ihfin.trans hfin, fun k => ?_⟩
    rw [watchEach_cons, ihline, hfin, hline, (watchLine_local n s).items]
    by_cases hk : k = n
    · rw [if_neg (hk ▸ hn), if_pos hk, if_pos (by simp [hk]), hk]
    · simp [hk]

theorem watchEach_of_qualifyTime (l : List (Fin 24)) {s : State} (hq : s.items.qualifyTime ≠ 0) :
    ∃ m, s.watchEach l = s.withMonitor m ∧ m.sources = s.monitor.sources := by
  induction l generalizing s with
  | nil => exact ⟨s.monitor, rfl, rfl⟩
  | cons n rest ih =>
    obtain ⟨x, hx⟩ := watchLine_of_qualifyTime n hq
    obtain ⟨m, hm, hsources⟩ := ih (s := s.watchLine n) (by rwa [(watchLine_local n s).items])
    rw [watchEach_cons, hm, hx]
    exact ⟨m, rfl, hsources.trans (by rw [hx]; rfl)⟩

theorem watchAll_line (fin : BitVec 24) (s : State) (n : Fin 24) : (s.watchAll fin).monitor.line n
    = Spec.watched s.items.qualifyTime (fin.getLsbD n.val) (s.monitor.line n) := by
  obtain ⟨-, hline⟩ := watchEach_monitor (List.nodup_finRange 24) (s.withMonitor { s.monitor with fin := fin })
  rw [watchAll_eq, hline, if_pos (List.mem_finRange n)]
  rfl

theorem watchAll_fin (fin : BitVec 24) (s : State) : (s.watchAll fin).monitor.fin = fin :=
  (watchEach_monitor (List.nodup_finRange 24) _).1

/-- With a qualify time, watching begins on every line without a raised fault. -/
theorem watchAll_of_qualifyTime (fin : BitVec 24) {s : State} (hq : s.items.qualifyTime ≠ 0) :
    (s.watchAll fin).log = s.log ∧ (s.watchAll fin).queue = s.queue ∧ (s.watchAll fin).alerts = s.alerts
      ∧ (s.watchAll fin).monitor.sources = s.monitor.sources := by
  obtain ⟨m, hm, hsources⟩ := watchEach_of_qualifyTime (List.finRange 24)
    (s := s.withMonitor { s.monitor with fin := fin }) hq
  rw [watchAll_eq, hm]
  exact ⟨rfl, rfl, rfl, hsources⟩

theorem afterStraps_eq (s : State) :
    s.afterStraps = s.withCtl (Spec.autoJoined s.straps.autojoin s.items.joinWait s.ctl) := by
  unfold State.afterStraps Spec.autoJoined
  split <;> rfl

/-! ### What a transaction has clocked out (R150, R178) -/

theorem shiftOut_length (r : Option Response) (n : Nat) : (shiftOut r n).length = n := by
  rw [shiftOut, List.length_take, List.length_append, List.length_replicate]
  omega

theorem freeBytes_length (k n : Nat) : (freeBytes k n).length = n := by simp [freeBytes]

theorem clocks_length (n : Nat) (s : State) : (s.clocks n).length = n := by
  unfold State.clocks
  split
  · exact freeBytes_length _ _
  · split
    · exact List.length_replicate
    · exact shiftOut_length _ _

theorem bytesOut_length (n : Nat) (s : State) : (s.bytesOut n).length = n := by
  rw [State.bytesOut, List.length_append, List.length_take, clocks_length]
  omega

theorem bytesOut_before {s : State} {n k : Nat} (hk : k < n) (hb : k < s.port.before.length) :
    (s.bytesOut n)[k]? = s.port.before[k]? := by
  rw [State.bytesOut, List.getElem?_append_left (by rw [List.length_take]; omega), List.getElem?_take_of_lt hk]

theorem bytesOut_after {s : State} {n k : Nat} (hk : k < n) (hb : s.port.before.length ≤ k) :
    (s.bytesOut n)[k]? = (s.clocks (n - s.port.before.length))[k - s.port.before.length]? := by
  have hlen : (s.port.before.take n).length = s.port.before.length := by rw [List.length_take]; omega
  rw [State.bytesOut, List.getElem?_append_right (by omega), hlen]

theorem bytesOut_clockedOut (s : State) (n : Nat) : Spec.clockedOut s n (s.bytesOut n) := by
  refine ⟨bytesOut_length n s, fun b k hb hk => ?_⟩
  obtain rfl : b = s.port.before := hb
  refine ⟨bytesOut_before hk, fun hlen hended => ⟨fun hlow => ?_, fun hhigh hfresh => ?_⟩⟩
  · have hclocks (j : Nat) : s.clocks j = List.replicate j 0xFF#8 := by
      simp [State.clocks, State.outUndefined, hended, hlow]
    rw [bytesOut_after hk hlen, hclocks, List.getElem?_replicate_of_lt (by omega)]
    rfl
  · have hbefore : s.port.before = [] := by rw [Port.before, hfresh]; rfl
    have hclocks : s.clocks n = shiftOut s.port.response n := by
      simp [State.clocks, State.outUndefined, hended, hhigh, hfresh]
    rw [State.bytesOut, hbefore, List.take_nil, List.nil_append, List.length_nil, Nat.sub_zero, hclocks]

theorem partByte_length (k bits : Nat) : bits / 8 + (partByte k bits).length = (bits + 7) / 8 := by
  unfold partByte
  split
  · rw [List.length_nil]
    omega
  · rw [freeBytes_length]
    omega

/-- Chip select at an edge. -/
theorem cutPort_cut (s : State) (clocked : Option Nat) : Spec.cut s (s.cutPort clocked) clocked := by
  refine ⟨fun h => ?_, fun bits h => ?_⟩
  · subst h
    exact ⟨rfl, rfl⟩
  · subst h
    have hlen := bytesOut_length (bits / 8) s
    refine ⟨_, rfl, ?_, ?_, ?_⟩
    · rw [List.length_append, hlen, partByte_length]
    · rw [List.take_left' hlen]
      exact bytesOut_clockedOut s _
    · show s.freeCount ≤ s.freeCount + _ + _
      omega

/-- Of the state after it, the cut speaks of the bytes held and of the free values alone. -/
theorem cut_of_same {s t u : State} {clocked : Option Nat} (h : Spec.cut s t clocked) (hp : u.port.straddle = t.port.straddle)
    (hf : u.freeCount = t.freeCount) : Spec.cut s u clocked := by
  unfold Spec.cut at *
  rwa [hp, hf]

theorem cutPort_port (s : State) (clocked : Option Nat) :
    (s.cutPort clocked).port = { s.port with straddle := (s.cutPort clocked).port.straddle } := by
  cases clocked <;> rfl

/-! ### The obligations -/

theorem record_empty (a : Addr) : Chassis.empty.record a = none := by
  simp [Chassis.record, Chassis.empty]

theorem boardReset_source_monitor (m : Monitor) (n : Fin 32) : m.boardReset.source n
    = ⟨defaultClass n.val, 16, false, (m.source n).counter, (m.source n).flag⟩ := by
  simp [Monitor.source, Monitor.boardReset]

theorem boardReset_line (m : Monitor) (n : Fin 24) : m.boardReset.line n = ⟨.edge, .activeLow, .inactive, none⟩ := by
  simp [Monitor.line, Monitor.boardReset, Line.default]

theorem boardReset_fin (m : Monitor) : m.boardReset.fin = m.fin := by rw [Monitor.boardReset]

theorem powerOn_source (n : Fin 32) : Monitor.powerOn.source n = ⟨defaultClass n.val, 16, false, 0, false⟩ := by
  simp [Monitor.source, Monitor.powerOn, Source.powerOn]

theorem powerOn_line (n : Fin 24) : Monitor.powerOn.line n = ⟨.edge, .activeLow, .inactive, none⟩ := by
  simp [Monitor.line, Monitor.powerOn, Line.default]

/-- Settles O16. -/
theorem powerOnValues : Obligations.PowerOnValues :=
  ⟨fun _ => rfl, rfl, rfl, powerOn_source, powerOn_line, rfl, rfl, rfl, rfl, rfl, rfl, rfl, rfl, rfl, rfl, rfl, rfl, rfl,
    rfl, rfl, rfl, rfl, rfl, record_empty, rfl, rfl, rfl, rfl, rfl, rfl, rfl, rfl, rfl, rfl, rfl, rfl, rfl, rfl, rfl, rfl,
    rfl, rfl, rfl⟩

theorem drive_eq (o : Outputs) (l : Level) : o.drive l = ⟨o.lastKnown, o.policy, l, decide (l ≠ .quiet),
    decide (l = .contain ∨ l = .halt), decide (l = .halt)⟩ := by
  cases l <;> rfl

theorem echoing_iff (e : Engine) (position : Nat) : e.echoing position = true ↔
    e.sent ≠ none ∧ e.phase = .tail ∧ 140 ≤ position ∧ position ≤ 163 := by
  simp [Engine.echoing, Option.isSome_iff_ne_none, and_assoc]

/-- Settles O18: a board reset after the cut of the port; the block values are those of its definition. -/
theorem boardReset : Obligations.BoardReset := by
  intro moment s hhigh hdue
  have hcut := cutPort_cut s moment.clocked
  obtain ⟨held, free, he⟩ := State.cutPort_eq s moment.clocked
  refine ⟨_, exec_resetAsserted_of_nothingDue moment hhigh hdue, ?_⟩
  rw [he] at hcut ⊢
  exact ⟨rfl, rfl, show Items.default = Items.default from rfl, boardReset_fin s.monitor,
    boardReset_source_monitor s.monitor, boardReset_line s.monitor, rfl, rfl, rfl, rfl, rfl, rfl, rfl, rfl, rfl,
    echoing_iff s.engine moment.position, rfl, show Chassis.empty = Chassis.empty from rfl, rfl, rfl, rfl, rfl, rfl, rfl,
    rfl, rfl, rfl, rfl, rfl, rfl, rfl, drive_eq _ _, rfl, rfl, rfl, rfl, cut_of_same hcut rfl rfl, rfl⟩

/-- The station with its port transaction cut, its straps sampled and its lines watched (R124, R168). -/
def State.sampled (p : Power) (x : Straps) (pins : Pins) (s : State) : State :=
  ((((s.cutPort pins.clocked).withPower p).withStraps x).watchAll pins.fin).afterStraps

theorem sampled_pins (p : Power) (x : Straps) (pins : Pins) (s : State) :
    (s.sampled p x pins).power = p ∧ (s.sampled p x pins).straps = x ∧ (s.sampled p x pins).monitor.fin = pins.fin
      ∧ (∀ n : Fin 24, (s.sampled p x pins).monitor.line n
        = Spec.watched s.items.qualifyTime (pins.fin.getLsbD n.val) (s.monitor.line n))
      ∧ (s.sampled p x pins).ctl = Spec.autoJoined x.autojoin s.items.joinWait s.ctl := by
  have l := watchAll_local pins.fin (((s.cutPort pins.clocked).withPower p).withStraps x)
  rw [State.sampled, afterStraps_eq]
  refine ⟨l.power, l.straps, watchAll_fin _ _, fun n => ?_, ?_⟩
  · rw [State.withCtl_monitor, watchAll_line]
    simp
  · rw [State.withCtl_ctl, l.straps, l.items, l.ctl]
    simp

/-- Sampling leaves the rest of the station: its port but for the bytes held, and, with a qualify time, log and queue. -/
theorem sampled_rest (p : Power) (x : Straps) (pins : Pins) (s : State) :
    (s.sampled p x pins).items = s.items ∧ (s.sampled p x pins).engine = s.engine
      ∧ (s.sampled p x pins).chassis = s.chassis ∧ (s.sampled p x pins).outputs = s.outputs
      ∧ (s.sampled p x pins).port = { s.port with straddle := (s.sampled p x pins).port.straddle }
      ∧ Spec.cut s (s.sampled p x pins) pins.clocked
      ∧ (s.items.qualifyTime ≠ 0 → (s.sampled p x pins).log = s.log ∧ (s.sampled p x pins).queue = s.queue
        ∧ (s.sampled p x pins).alerts = s.alerts ∧ (s.sampled p x pins).monitor.sources = s.monitor.sources)
      ∧ (s.sampled p x pins).alerts.mask = s.alerts.mask ∧ (s.sampled p x pins).pending = s.pending := by
  have l := watchAll_local pins.fin (((s.cutPort pins.clocked).withPower p).withStraps x)
  have hport : (s.sampled p x pins).port = (s.cutPort pins.clocked).port := by
    rw [State.sampled, afterStraps_eq]
    exact l.port
  have hcut : Spec.cut s (s.sampled p x pins) pins.clocked := by
    refine cut_of_same (cutPort_cut s pins.clocked) (congrArg Port.straddle hport) ?_
    rw [State.sampled, afterStraps_eq]
    exact l.freeCount
  have hq (h : s.items.qualifyTime ≠ 0) := watchAll_of_qualifyTime pins.fin
    (s := ((s.cutPort pins.clocked).withPower p).withStraps x) (by simpa using h)
  refine ⟨?_, ?_, ?_, ?_, ?_, hcut, fun h => ?_, ?_, ?_⟩
  case refine_5 =>
    rw [hport]
    exact cutPort_port s pins.clocked
  case refine_6 => simpa [State.sampled, afterStraps_eq] using hq h
  all_goals simp [State.sampled, afterStraps_eq, l.items, l.engine, l.chassis, l.outputs, l.mask, l.pending]

theorem exec_endOfPowerOn_high {s : State} (addr : Addr) (rate : BitVec 2) (autojoin : Bool) (pins : Pins)
    (h : s.power = ⟨false, false⟩) : exec (.endOfPowerOn addr rate autojoin pins) s
      = .next (s.sampled ⟨true, false⟩ ⟨addr, rate, autojoin⟩ pins) := by
  simp [exec, execEndOfPowerOn, h, State.sampled]

/-- With RESET low, watching and the automatic join wait for its release (log 18). -/
theorem exec_endOfPowerOn_low {s : State} (addr : Addr) (rate : BitVec 2) (autojoin : Bool) (pins : Pins)
    (h : s.power = ⟨false, true⟩) : exec (.endOfPowerOn addr rate autojoin pins) s
      = .next ((((s.cutPort pins.clocked).withPower ⟨true, true⟩).withStraps ⟨addr, rate, autojoin⟩).withMonitor
          { s.monitor with fin := pins.fin }) := by
  simp [exec, execEndOfPowerOn, h]

theorem exec_resetReleased_ended {s : State} (rate : BitVec 2) (autojoin : Bool) (pins : Pins)
    (h : s.power = ⟨true, true⟩) : exec (.resetReleased rate autojoin pins) s
      = .next (s.sampled ⟨true, false⟩ ⟨s.straps.addr, rate, autojoin⟩ pins) := by
  simp [exec, execResetReleased, h, State.sampled]

theorem exec_resetReleased_early {s : State} (rate : BitVec 2) (autojoin : Bool) (pins : Pins)
    (h : s.power = ⟨false, true⟩) : exec (.resetReleased rate autojoin pins) s
      = .next ((s.cutPort pins.clocked).withPower ⟨false, false⟩) := by
  simp [exec, execResetReleased, h]

theorem power_eq {p : Power} {ended resetLow : Bool} (he : p.ended = ended) (hl : p.resetLow = resetLow) :
    p = ⟨ended, resetLow⟩ := by
  subst he hl
  rfl

/-- Settles O19: with RESET high after power-on the pins are sampled (`State.sampled`); with RESET low, or before the end of
power-on, little more than the port's cut happens. -/
theorem endOfPowerOnAndReleaseSampleThePins : Obligations.EndOfPowerOnAndReleaseSampleThePins := by
  refine ⟨fun addr rate autojoin pins s hnot => ?ends, fun rate autojoin pins s hlow => ?released⟩
  all_goals
    have hcut := cutPort_cut s pins.clocked
    obtain ⟨held, free, he⟩ := State.cutPort_eq s pins.clocked
    rw [he] at hcut
  case ends =>
    cases hreset : s.power.resetLow with
    | true =>
      have hexec := exec_endOfPowerOn_low addr rate autojoin pins (power_eq hnot hreset)
      rw [he] at hexec
      exact ⟨_, hexec, rfl, rfl, rfl, nofun, fun _ => ⟨rfl, rfl⟩, rfl, rfl, rfl, rfl, rfl, cut_of_same hcut rfl rfl,
        fun _ => ⟨rfl, rfl, rfl, rfl⟩, rfl, rfl⟩
    | false =>
      have hexec := exec_endOfPowerOn_high addr rate autojoin pins (power_eq hnot hreset)
      obtain ⟨hpower, hstraps, hfin, hlines, hctl⟩ := sampled_pins ⟨true, false⟩ ⟨addr, rate, autojoin⟩ pins s
      exact ⟨_, hexec, hpower, hstraps, hfin, fun _ => ⟨hlines, hctl⟩, nofun, sampled_rest _ _ pins s⟩
  case released =>
    cases hended : s.power.ended with
    | true =>
      have hexec := exec_resetReleased_ended rate autojoin pins (power_eq hended hlow)
      obtain ⟨hpower, hstraps, hfin, hlines, hctl⟩ := sampled_pins ⟨true, false⟩ ⟨s.straps.addr, rate, autojoin⟩ pins s
      exact ⟨_, hexec, hpower, fun _ => ⟨hstraps, hfin, hlines, hctl⟩, nofun, sampled_rest _ _ pins s⟩
    | false =>
      have hexec := exec_resetReleased_early rate autojoin pins (power_eq hended hlow)
      rw [he] at hexec
      exact ⟨_, hexec, rfl, nofun, fun _ => rfl, rfl, rfl, rfl, rfl, rfl, cut_of_same hcut rfl rfl,
        fun _ => ⟨rfl, rfl, rfl, rfl⟩, rfl, rfl⟩

end Sys2Proof.Machine
end

section
/-! PROOFS. Assertions of sources, raised faults in the Local Fault Log, and notices in the queue (chapters 4, 7 and 8). -/

namespace Sys2Proof.Machine

/-! ### Assertions by class (R121, R127, R128) -/

theorem bump_eq (b : Byte) : Spec.bump b = satInc b := by
  have h := satInc_toNat b
  unfold Spec.bump
  split
  · next hb =>
    subst hb
    rfl
  · next hb =>
    apply BitVec.eq_of_toNat_eq
    rw [h]
    bv_omega

theorem asserted_off {x : Source} (h : x.cls = .off) : x.asserted = (x, none) := by simp [Source.asserted, h]

theorem asserted_count_reached {x : Source} (h : x.cls = .count) (hreach : x.threshold ≤ satInc x.counter)
    (hflag : x.flag = false) : x.asserted = ({ x with counter := satInc x.counter, flag := true }, some .minor) := by
  simp [Source.asserted, h, hreach, hflag]

theorem asserted_count_below {x : Source} (h : x.cls = .count) (hno : satInc x.counter < x.threshold ∨ x.flag = true) :
    x.asserted = ({ x with counter := satInc x.counter }, none) := by
  have hn : ¬(x.threshold ≤ satInc x.counter ∧ x.flag = false) := by
    rintro ⟨hreach, hflag⟩
    exact hno.elim (fun hlt => BitVec.not_le.2 hlt hreach) (by simp [hflag])
  simp [Source.asserted, h, hn]

/-- The class raises faults of a severity. -/
def SourceClass.raises (c : SourceClass) (severity : Severity) : Prop :=
  (c = .minor ∧ severity = .minor) ∨ (c = .major ∧ severity = .major) ∨ (c = .critical ∧ severity = .critical)

theorem asserted_fault_idle {x : Source} {severity : Severity} (h : x.cls.raises severity) (hl : x.latched = false) :
    x.asserted = ({ x with counter := satInc x.counter, latched := true }, some severity) := by
  rcases h with ⟨hc, rfl⟩ | ⟨hc, rfl⟩ | ⟨hc, rfl⟩ <;> simp [Source.asserted, hc, hl, SourceClass.severity]

theorem asserted_fault_latched {x : Source} {severity : Severity} (h : x.cls.raises severity) (hl : x.latched = true) :
    x.asserted = ({ x with counter := satInc x.counter }, none) := by
  rcases h with ⟨hc, rfl⟩ | ⟨hc, rfl⟩ | ⟨hc, rfl⟩ <;> simp [Source.asserted, hc, hl]

theorem assertSource_raising {s : State} {n : Fin 32} {y : Source} {severity : Severity} (detail : Word)
    (h : (s.monitor.source n).asserted = (y, some severity)) :
    s.assertSource n detail = (s.withMonitor (s.monitor.setSource n y)).raiseFault n severity detail := by
  rw [State.assertSource, h]

theorem assertSource_counting {s : State} {n : Fin 32} {y : Source} (detail : Word)
    (h : (s.monitor.source n).asserted = (y, none)) :
    s.assertSource n detail = s.withMonitor (s.monitor.setSource n y) := by
  rw [State.assertSource, h]

/-- Settles O25. -/
theorem assertionsByClass : Obligations.AssertionsByClass := by
  refine ⟨fun s n detail x hx => ?_, fun m n k x => ⟨source_setSource m n k x, rfl, rfl⟩⟩
  subst hx
  rw [bump_eq]
  refine ⟨fun h => ?_, fun h hreach hflag => assertSource_raising detail (asserted_count_reached h hreach hflag),
    fun h hno => assertSource_counting detail (asserted_count_below h hno), fun severity h =>
    ⟨fun hl => assertSource_raising detail (asserted_fault_idle h hl),
      fun hl => assertSource_counting detail (asserted_fault_latched h hl)⟩⟩
  rw [assertSource_counting detail (asserted_off h), setSource_source_same, State.withMonitor_same]

/-! ### Records of the Local Fault Log (R137 to R142) -/

theorem find_eq (l : Log) (source : BitVec 5) :
    l.find source = l.records.find? (fun x => decide (x.source = source)) := by
  unfold Log.find Log.records
  cases l.first with
  | none => rfl
  | some r => by_cases h : r.source = source <;> simp [h]

theorem modify_records (l : Log) (source : BitVec 5) (f : Record → Record) :
    (l.modify source f).records = l.records.map (fun r => if r.source = source then f r else r) := by
  unfold Log.records Log.modify
  cases l.first <;> rfl

theorem find_of_split {l : Log} {source : BitVec 5} {pre post : List Record} {x : Record}
    (ht : l.records = pre ++ x :: post) (hx : x.source = source) (hn : ∀ y ∈ pre ++ post, y.source ≠ source) :
    l.find source = some x := by
  rw [find_eq, ht, List.find?_append, List.find?_eq_none.2 fun y hy => ?_]
  · simp [hx]
  · simpa using hn y (List.mem_append_left _ hy)

/-- The record of a source changes in its place. -/
theorem modify_of_split {l : Log} {source : BitVec 5} {pre post : List Record} {x : Record} (f : Record → Record)
    (ht : l.records = pre ++ x :: post) (hx : x.source = source) (hn : ∀ y ∈ pre ++ post, y.source ≠ source) :
    (l.modify source f).records = pre ++ f x :: post := by
  have hother {m : List Record} (hm : ∀ y ∈ m, y.source ≠ source) :
      m.map (fun r => if r.source = source then f r else r) = m :=
    (List.map_congr_left fun y hy => if_neg (hm y hy)).trans (List.map_id' m)
  rw [modify_records, ht, List.map_append, List.map_cons, if_pos hx,
    hother fun y hy => hn y (List.mem_append_left _ hy), hother fun y hy => hn y (List.mem_append_right _ hy)]

theorem find_of_new {l : Log} {source : BitVec 5} (hn : ∀ x ∈ l.records, x.source ≠ source) : l.find source = none := by
  rw [find_eq, List.find?_eq_none]
  simpa using hn

/-- R139: a fault at an empty log. -/
theorem take_of_empty {l : Log} {source : BitVec 5} (severity : Severity) (detail : Word) (hf : l.first = none) :
    l.take source severity detail
      = ⟨{ l with first := some (l.newRecord source severity detail), counter := l.nextNumber },
          (l.newRecord source severity detail).report, true, true⟩ := by
  simp [Log.take, hf]

/-- R138: a fault of a source without a record, with room in the next list. -/
theorem take_of_room {l : Log} {source : BitVec 5} (severity : Severity) (detail : Word) (hf : l.first ≠ none)
    (hn : ∀ x ∈ l.records, x.source ≠ source) (hroom : l.next.length < 8) : l.take source severity detail
      = ⟨{ l with next := l.next ++ [l.newRecord source severity detail], counter := l.nextNumber },
          (l.newRecord source severity detail).report, true, false⟩ := by
  obtain ⟨r, hr⟩ := Option.ne_none_iff_exists'.1 hf
  simp [Log.take, hr, find_of_new hn, nextCapacity, hroom]

/-- R141: a fault of a source without a record, at a full next list. -/
theorem take_of_full {l : Log} {source : BitVec 5} (severity : Severity) (detail : Word) (hf : l.first ≠ none)
    (hn : ∀ x ∈ l.records, x.source ≠ source) (hfull : 8 ≤ l.next.length) : l.take source severity detail
      = ⟨{ l with overflow := satInc l.overflow },
          { (l.newRecord source severity detail).report with number := 0 }, false, false⟩ := by
  obtain ⟨r, hr⟩ := Option.ne_none_iff_exists'.1 hf
  simp [Log.take, hr, find_of_new hn, nextCapacity, Nat.not_lt.2 hfull]

/-- R140: a fault of a source that has a record. -/
theorem take_of_held {l : Log} {source : BitVec 5} {x : Record} (severity : Severity) (detail : Word) (hf : l.first ≠ none)
    (hx : l.find source = some x) : l.take source severity detail
      = ⟨l.modify source (fun r => r.coalesce severity detail), coalescedReport x severity detail, true, false⟩ := by
  obtain ⟨r, hr⟩ := Option.ne_none_iff_exists'.1 hf
  simp [Log.take, hr, hx]

theorem coalescedReport_of_unsent {x : Record} (severity : Severity) (detail : Word) (h : x.state = .unsent) :
    coalescedReport x severity detail = (x.coalesce severity detail).report := by
  rw [coalescedReport, h]

theorem coalescedReport_of_sent {x : Record} (severity : Severity) (detail : Word) (h : x.state ≠ .unsent) :
    coalescedReport x severity detail = ⟨x.source.setWidth 6, severity, 1, detail, x.number⟩ := by
  unfold coalescedReport
  cases hs : x.state with
  | unsent => exact absurd hs h
  | _ => rfl

/-- Settles O26. -/
theorem raisedFaultsInTheLocalLog : Obligations.RaisedFaultsInTheLocalLog := by
  rintro l source severity detail next fresh rfl rfl
  refine ⟨fun hf => take_of_empty severity detail hf, fun hf hn hroom => take_of_room severity detail hf hn hroom,
    fun hf hn hfull => by rw [bump_eq]; exact take_of_full severity detail hf hn hfull, fun hf pre post x ht hx hn => ?held⟩
  case held =>
    rw [take_of_held severity detail hf (find_of_split ht hx hn), bump_eq]
    subst hx
    exact ⟨_, _, rfl, rfl, modify_of_split _ ht rfl hn, by simp [Log.modify], rfl, rfl, rfl, rfl,
      coalescedReport_of_unsent severity detail, coalescedReport_of_sent severity detail⟩

end Sys2Proof.Machine
end

section
/-! PROOFS. Where a notice stands in the queue, and the local record that it reports (R61 to R68, R73, R75, R143). -/

namespace Sys2Proof.Machine

/-! ### Places in the queue (R61, R62) -/

theorem before_iff (a b : Item) : Spec.before a b ↔ a.ahead b = true := (ahead_iff a b).symm

theorem before_irrefl (a : Item) : ¬Spec.before a a := by simp [Spec.before]

theorem placeItem_placed (i : Item) (l : List Item) : Spec.placed i l (placeItem i l) := by
  induction l with
  | nil => exact ⟨[], [], rfl, rfl, nofun, nofun⟩
  | cons x rest ih =>
    by_cases h : i.ahead x = true
    · refine ⟨[], x :: rest, rfl, by rw [placeItem, if_pos h]; rfl, nofun, fun y tail hy => ?_⟩
      cases hy
      exact (before_iff i x).2 h
    · obtain ⟨pre, post, hl, hm, hpre, hpost⟩ := ih
      refine ⟨x :: pre, post, by rw [hl]; rfl, by rw [placeItem, if_neg h, hm]; rfl, ?_, hpost⟩
      exact List.forall_mem_cons.2 ⟨fun hb => h ((before_iff i x).1 hb), hpre⟩

theorem lastInOrder_append {l : List Item} {last : Item} (h : ∀ x ∈ l, Spec.before x last) :
    lastInOrder (l ++ [last]) = some last := by
  induction l with
  | nil => rfl
  | cons x rest ih =>
    obtain ⟨hx, hrest⟩ := List.forall_mem_cons.1 h
    rw [List.cons_append, lastInOrder, ih hrest]
    exact if_pos ((before_iff x last).1 hx)

theorem erase_last {l : List Item} {last : Item} (h : ∀ x ∈ l, Spec.before x last) : (l ++ [last]).erase last = l := by
  have hn : last ∉ l := fun hm => before_irrefl last (h last hm)
  rw [List.erase_append_right _ hn, List.erase_cons_head, List.append_nil]

/-! ### An arrival that needs a new item (R62, R66, R67) -/

theorem insert_of_room {q : Queue} (n : Notice) (linked : Bool) (h : q.count < 8) : q.insert n linked
    = ⟨{ q with waiting := placeItem ⟨n, linked, q.nextAge⟩ q.waiting, nextAge := q.nextAge + 1 }, true, none⟩ := by
  rw [Queue.insert, if_pos (show q.count < queueCapacity from h)]

theorem insert_displaces {q : Queue} {n : Notice} (linked : Bool) {l : List Item} {last : Item} (hfull : 8 ≤ q.count)
    (hw : q.waiting = l ++ [last]) (hl : ∀ x ∈ l, Spec.before x last) (hu : n.urgency < last.notice.urgency) :
    q.insert n linked
      = ⟨{ q with waiting := placeItem ⟨n, linked, q.nextAge⟩ l, nextAge := q.nextAge + 1 }, true, some last⟩ := by
  have hlast : lastInOrder q.waiting = some last := by rw [hw, lastInOrder_append hl]
  simp only [Queue.insert, queueCapacity, Nat.not_lt.2 hfull, if_false, hlast, hu, if_true]
  rw [hw, erase_last hl]

theorem insert_refused {q : Queue} {n : Notice} (linked : Bool) (hfull : 8 ≤ q.count)
    (hu : ∀ x ∈ q.waiting, x.notice.urgency ≤ n.urgency) : q.insert n linked = ⟨q, false, none⟩ := by
  simp only [Queue.insert, queueCapacity, Nat.not_lt.2 hfull, if_false]
  cases hlast : lastInOrder q.waiting with
  | none => rfl
  | some w => exact if_neg (Nat.not_lt.2 (hu w (lastInOrder_mem hlast)))

theorem urgency_le_last {l : List Item} {last : Item} (h : ∀ x ∈ l, Spec.before x last) :
    ∀ x ∈ l ++ [last], x.notice.urgency ≤ last.notice.urgency := by
  intro x hx
  rcases List.mem_append.1 hx with hx | hx
  · rcases h x hx with hlt | ⟨heq, -⟩
    · exact hlt.le
    · exact heq.le
  · rw [List.mem_singleton.1 hx]

/-! ### What an arriving FAULT meets (R63 to R65) -/

theorem unlink_eq_relinked (source : BitVec 6) : Item.unlink source = Spec.relinked source true := by
  funext i
  simp [Item.unlink, Spec.relinked]

theorem relinked_false (source : BitVec 6) : Spec.relinked source false = id := by
  funext i
  simp [Spec.relinked]

theorem relinked_notice (source : BitVec 6) (linked : Bool) (i : Item) :
    (Spec.relinked source linked i).notice = i.notice := by
  unfold Spec.relinked
  split <;> rfl

theorem isResolve_iff (source : BitVec 6) (n : Notice) : n.isResolve source = true ↔ n = .resolve source := by
  cases n <;> simp [Notice.isResolve]

theorem not_isResolve_eq (source : BitVec 6) :
    (fun i : Item => !i.notice.isResolve source) = fun i => decide (i.notice ≠ .resolve source) := by
  funext i
  rw [Bool.eq_iff_iff, Bool.not_eq_true', decide_eq_true_eq, ← Bool.not_eq_true, isResolve_iff]

/-- The queue that an arriving FAULT for the source meets. -/
def Queue.metBy (q : Queue) (source : BitVec 6) (linked : Bool) : Queue :=
  { q with inFlight := Spec.metHead q source linked, waiting := Spec.met q source linked }

theorem metBy_eq (q : Queue) (source : BitVec 6) (linked : Bool) :
    (if linked then (q.cancelResolve source).unlink source else q.cancelResolve source) = q.metBy source linked := by
  cases linked with
  | true =>
    simp only [if_true, Queue.cancelResolve, Queue.unlink, Queue.metBy, Spec.metHead, Spec.met, unlink_eq_relinked,
      not_isResolve_eq]
  | false =>
    simp only [Bool.false_eq_true, if_false, Queue.cancelResolve, Queue.metBy, Spec.metHead, Spec.met, relinked_false,
      not_isResolve_eq, List.map_id, id, Option.map_id']

theorem mem_met {q : Queue} {source : BitVec 6} {linked : Bool} {i : Item} (h : i ∈ Spec.met q source linked) :
    ∃ x ∈ q.waiting, i = Spec.relinked source linked x := by
  obtain ⟨x, hx, he⟩ := List.mem_map.1 h
  exact ⟨x, (List.mem_filter.1 hx).1, he.symm⟩

theorem met_not_isFault {q : Queue} {source : BitVec 6} (linked : Bool)
    (h : ∀ i ∈ q.waiting, i.notice.isFault source = false) :
    ∀ i ∈ Spec.met q source linked, i.notice.isFault source = false := by
  intro i hi
  obtain ⟨x, hx, rfl⟩ := mem_met hi
  rw [relinked_notice]
  exact h x hx

theorem isFault_iff (source : BitVec 6) (n : Notice) : n.isFault source = true ↔ ∃ r, n = .fault r ∧ r.source = source := by
  cases n <;> simp [Notice.isFault]

theorem find_isFault_none {l : List Item} {source : BitVec 6} (h : ∀ i ∈ l, i.notice.isFault source = false) :
    l.find? (fun i => i.notice.isFault source) = none := by
  rw [List.find?_eq_none]
  simpa using h

theorem find_isFault_split {pre post : List Item} {old : Item} {source : BitVec 6}
    (hold : old.notice.isFault source = true) (h : ∀ i ∈ pre ++ post, i.notice.isFault source = false) :
    (pre ++ old :: post).find? (fun i => i.notice.isFault source) = some old := by
  rw [List.find?_append, find_isFault_none fun i hi => h i (List.mem_append_left _ hi)]
  simp [hold]

theorem erase_split {pre post : List Item} {old : Item} {source : BitVec 6}
    (hold : old.notice.isFault source = true) (h : ∀ i ∈ pre ++ post, i.notice.isFault source = false) :
    (pre ++ old :: post).erase old = pre ++ post := by
  have hn : old ∉ pre := fun hm => by
    have := h old (List.mem_append_left _ hm)
    rw [hold] at this
    cases this
  rw [List.erase_append_right _ hn, List.erase_cons_head]

theorem offerFault_inserts {q : Queue} {r : Report} (linked : Bool)
    (h : ∀ i ∈ q.waiting, i.notice.isFault r.source = false) :
    q.offerFault r linked = (q.metBy r.source linked).insert (.fault r) linked := by
  simp only [Queue.offerFault, metBy_eq, Queue.metBy, find_isFault_none (met_not_isFault linked h)]

/-- R63, R64: a FAULT merges into the waiting FAULT of its source. -/
theorem offerFault_merges {q : Queue} {r older : Report} {linked : Bool} {pre post : List Item} {old : Item}
    (hw : Spec.met q r.source linked = pre ++ old :: post) (hold : old.notice = .fault older) (hs : older.source = r.source)
    (h : ∀ i ∈ pre ++ post, i.notice.isFault r.source = false) :
    q.offerFault r linked = ⟨{ q with
      inFlight := Spec.metHead q r.source linked
      waiting := placeItem ⟨.fault (older.merge r linked), linked || old.linked, old.age⟩ (pre ++ post) }, true, none⟩ := by
  have hfault : old.notice.isFault r.source = true := (isFault_iff _ _).2 ⟨older, hold, hs⟩
  simp only [Queue.offerFault, metBy_eq, Queue.metBy, hw, find_isFault_split hfault h, hold, Queue.mergeInto,
    erase_split hfault h]

theorem metBy_count (q : Queue) (source : BitVec 6) (linked : Bool) : (q.metBy source linked).count
    = (Spec.met q source linked).length + q.inFlight.toList.length := by
  cases hf : q.inFlight <;> simp [Queue.count, Queue.items, Queue.metBy, Spec.metHead, hf]

/-- Settles O27: the arriving FAULT meets `metBy`; the rest is `insert` and `mergeInto`. -/
theorem faultsInTheQueue : Obligations.FaultsInTheQueue := by
  refine ⟨fun q r linked => ⟨fun hn hroom => ?placed, fun hn => offerFault_inserts linked hn,
    fun pre post old older hw hold hs hn => ?merged⟩, fun q n linked => ⟨fun hroom => ⟨_, placeItem_placed _ _,
      insert_of_room n linked hroom⟩, fun l last hfull hw hl => ⟨fun hu => ⟨_, placeItem_placed _ _,
      insert_displaces linked hfull hw hl hu⟩, fun hu => ?refused⟩⟩, fun _ _ _ => rfl, fun r h => ?critical, fun r h => ?major,
    fun r h => ?minor, fun _ => rfl, rfl⟩
  case placed =>
    refine ⟨_, placeItem_placed _ _, ?_⟩
    rw [offerFault_inserts linked hn, insert_of_room _ linked (by rw [metBy_count]; exact hroom)]
    rfl
  case merged =>
    refine ⟨_, satAdd older.occurrences r.occurrences, satAdd_toNat _ _, placeItem_placed _ _, ?_⟩
    rw [offerFault_merges hw hold hs hn, Report.merge, hs]
  case refused =>
    refine insert_refused linked hfull fun x hx => ?_
    rw [hw] at hx
    exact (urgency_le_last hl x hx).trans hu
  all_goals rw [Notice.urgency, h]; rfl

/-! ### A head that returns (R73, R75) -/

theorem headBack_of_inFlight {q : Queue} {h : Head} (among : Item → List Item → List Item) (hf : q.inFlight = some h) :
    q.headBack among = { q with inFlight := none, waiting := among h.item q.waiting } := by
  rw [Queue.headBack, hf]

theorem isFault_self {n : Notice} {r : Report} (h : n = .fault r) : n.isFault r.source = true :=
  (isFault_iff _ _).2 ⟨r, h, rfl⟩

theorem rejoinAmong_of_other {i : Item} (waiting : List Item) (h : ∀ n, i.notice.isFault n = false) :
    rejoinAmong i waiting = placeItem i waiting := by
  unfold rejoinAmong
  cases hn : i.notice with
  | fault r => exact absurd (h r.source) (by simp [isFault_self hn])
  | _ => rfl

theorem rejoinAmong_of_alone {i : Item} {older : Report} {waiting : List Item} (hi : i.notice = .fault older)
    (h : ∀ x ∈ waiting, x.notice.isFault older.source = false) : rejoinAmong i waiting = placeItem i waiting := by
  simp only [rejoinAmong, hi, find_isFault_none h]

theorem rejoinAmong_merges {i x : Item} {older younger : Report} {pre post : List Item} (hi : i.notice = .fault older)
    (hx : x.notice = .fault younger) (hs : younger.source = older.source)
    (h : ∀ y ∈ pre ++ post, y.notice.isFault older.source = false) :
    rejoinAmong i (pre ++ x :: post)
      = placeItem ⟨.fault (older.merge younger x.linked), x.linked || i.linked, i.age⟩ (pre ++ post) := by
  have hfault : x.notice.isFault older.source = true := (isFault_iff _ _).2 ⟨younger, hx, hs⟩
  simp only [rejoinAmong, hi, find_isFault_split hfault h, hx, erase_split hfault h]

theorem returnAmong_of_other {i : Item} (waiting : List Item) (h : ∀ n, i.notice.isResolve n = false) :
    returnAmong i waiting = rejoinAmong i waiting := by
  unfold returnAmong
  cases hn : i.notice with
  | resolve n => exact absurd (h n) (by simp [hn, Notice.isResolve])
  | _ => rfl

theorem returnAmong_cancelled {i : Item} {source : BitVec 6} {waiting : List Item} (hi : i.notice = .resolve source)
    (h : ∃ x ∈ waiting, x.notice.isFault source = true) : returnAmong i waiting = waiting := by
  simp only [returnAmong, hi, List.any_eq_true.2 h, if_true]

theorem returnAmong_resolve {i : Item} {source : BitVec 6} {waiting : List Item} (hi : i.notice = .resolve source)
    (h : ∀ x ∈ waiting, x.notice.isFault source = false) :
    returnAmong i waiting = placeItem i (waiting.filter (fun x => decide (x.notice ≠ .resolve source))) := by
  have hany : waiting.any (fun x => x.notice.isFault source) = false := by
    rw [List.any_eq_false]
    simpa using h
  rw [← not_isResolve_eq]
  simp only [returnAmong, hi, hany, Bool.false_eq_true, if_false, rejoinAmong]

/-- Settles O28. -/
theorem returnedHeadMeetsItsSource : Obligations.ReturnedHeadMeetsItsSource := by
  refine ⟨fun q h hf => ?returned, fun q h hf => ?retried⟩
  case returned =>
    rw [Queue.returnHead, headBack_of_inFlight _ hf]
    refine ⟨fun hnf hnr => ⟨_, placeItem_placed _ _, ?other⟩, fun older hi => ?fault, fun source hi =>
      ⟨fun hex => by rw [returnAmong_cancelled hi hex], fun hn => ⟨_, placeItem_placed _ _, ?resolve⟩⟩⟩
    case other => rw [returnAmong_of_other _ hnr, rejoinAmong_of_other _ hnf]
    case resolve => rw [returnAmong_resolve hi hn]
    case fault =>
      rw [returnAmong_of_other _ (by simp [hi, Notice.isResolve])]
      refine ⟨fun hn => ⟨_, placeItem_placed _ _, by rw [rejoinAmong_of_alone hi hn]⟩, fun pre post x younger hw hx hs hn => ?_⟩
      refine ⟨_, satAdd older.occurrences younger.occurrences, satAdd_toNat _ _, placeItem_placed _ _, ?_⟩
      rw [hw, rejoinAmong_merges hi hx hs hn, Report.merge]
  case retried =>
    rw [Queue.retryHead, Queue.returnHead, headBack_of_inFlight _ hf, headBack_of_inFlight _ hf]
    refine ⟨fun hnf => ⟨_, placeItem_placed _ _, by rw [rejoinAmong_of_other _ hnf]⟩, fun r hi => ?_⟩
    rw [returnAmong_of_other _ (by simp [hi, Notice.isResolve])]

end Sys2Proof.Machine
end

section
/-! PROOFS. Local records follow the queue, and UNSENT records are queued again (R68, R77, R143). -/

namespace Sys2Proof.Machine

/-! ### What an arrival leaves in the queue -/

theorem link_eq_some_iff (i : Item) (n : BitVec 6) : i.link = some n ↔ i.linked = true ∧ i.notice.isFault n = true := by
  unfold Item.link
  cases i.notice <;> simp [Notice.isFault]

theorem link_of_fault {i : Item} {r : Report} (hi : i.notice = .fault r) (hl : i.linked = true) : i.link = some r.source :=
  (link_eq_some_iff _ _).2 ⟨hl, isFault_self hi⟩

theorem link_eq_none {i : Item} (h : (∀ r, i.notice ≠ .fault r) ∨ i.linked = false) : i.link = none := by
  rw [Option.eq_none_iff_forall_ne_some]
  intro n hn
  obtain ⟨hl, hf⟩ := (link_eq_some_iff _ _).1 hn
  obtain ⟨r, hr, -⟩ := (isFault_iff _ _).1 hf
  exact h.elim (fun hno => hno r hr) (by simp [hl])

theorem waitingLink_iff (q : Queue) (n : BitVec 6) : q.waitingLink n = true ↔ ∃ i ∈ q.waiting, i.link = some n := by
  simp [Queue.waitingLink]

/-- A new item is placed, or the queue stays as it is and nothing is displaced. -/
theorem insert_cases (q : Queue) (n : Notice) (linked : Bool) :
    ((q.insert n linked).taken = true ∧ ∃ l, l ⊆ q.waiting
        ∧ (q.insert n linked).queue.waiting = placeItem ⟨n, linked, q.nextAge⟩ l)
      ∨ ((q.insert n linked).taken = false ∧ (q.insert n linked).displaced = none) := by
  unfold Queue.insert
  dsimp only
  split
  · exact Or.inl ⟨rfl, _, List.Subset.refl _, rfl⟩
  · split
    · exact Or.inr ⟨rfl, rfl⟩
    · split
      · exact Or.inl ⟨rfl, _, List.erase_subset, rfl⟩
      · exact Or.inr ⟨rfl, rfl⟩

/-- A FAULT is inserted as a new item, or merges into a waiting FAULT of its source. -/
theorem offerFault_cases (q : Queue) (r : Report) (linked : Bool) :
    q.offerFault r linked = (q.metBy r.source linked).insert (.fault r) linked
      ∨ ∃ (old : Item) (older : Report) (l : List Item), old.notice = .fault older ∧ older.source = r.source
        ∧ q.offerFault r linked = ⟨{ q with
            inFlight := Spec.metHead q r.source linked
            waiting := placeItem ⟨.fault (older.merge r linked), linked || old.linked, old.age⟩ l }, true, none⟩ := by
  cases hfind : (Spec.met q r.source linked).find? (fun i => i.notice.isFault r.source) with
  | none => exact Or.inl (by simp only [Queue.offerFault, metBy_eq, Queue.metBy, hfind])
  | some old =>
    obtain ⟨older, hold, hs⟩ := (isFault_iff r.source old.notice).1 (by simpa using List.find?_some hfind)
    refine Or.inr ⟨old, older, (Spec.met q r.source linked).erase old, hold, hs, ?_⟩
    simp only [Queue.offerFault, metBy_eq, Queue.metBy, hfind, hold, Queue.mergeInto]

/-- R143: a linked FAULT that is taken leaves an item that is linked to its record. -/
theorem offerFault_waitingLink {q : Queue} {r : Report} (h : (q.offerFault r true).taken = true) :
    (q.offerFault r true).queue.waitingLink r.source = true := by
  rw [waitingLink_iff]
  rcases offerFault_cases q r true with he | ⟨old, older, l, -, hs, he⟩
  · rw [he] at h ⊢
    rcases insert_cases (q.metBy r.source true) (.fault r) true with ⟨-, l, -, hw⟩ | ⟨hno, -⟩
    · exact ⟨_, by rw [hw, mem_placeItem]; exact Or.inl rfl, link_of_fault rfl rfl⟩
    · rw [hno] at h
      cases h
  · rw [he, ← hs]
    exact ⟨_, (mem_placeItem _ _ _).2 (Or.inl rfl), link_of_fault (r := older.merge r true) rfl rfl⟩

theorem offerFault_refused {q : Queue} {r : Report} {linked : Bool} (h : (q.offerFault r linked).taken = false) :
    (q.offerFault r linked).displaced = none := by
  rcases offerFault_cases q r linked with he | ⟨old, older, l, -, -, he⟩
  · rw [he] at h ⊢
    rcases insert_cases (q.metBy r.source linked) (.fault r) linked with ⟨htaken, -⟩ | ⟨-, hnone⟩
    · rw [h] at htaken
      cases htaken
    · exact hnone
  · rw [he]

/-- A FAULT without a link, where none of its source waits, links no item to the record. -/
theorem offerFault_waitingLink_of_alone {q : Queue} {r : Report} (hn : ∀ i ∈ q.waiting, i.notice.isFault r.source = false)
    (h : (q.offerFault r false).taken = true) : (q.offerFault r false).queue.waitingLink r.source = false := by
  rw [← Bool.not_eq_true, waitingLink_iff]
  rintro ⟨i, hi, hlink⟩
  rw [offerFault_inserts false hn] at h hi
  rcases insert_cases (q.metBy r.source false) (.fault r) false with ⟨-, l, hsub, hw⟩ | ⟨hno, -⟩
  · obtain ⟨hlinked, hfault⟩ := (link_eq_some_iff _ _).1 hlink
    rw [hw, mem_placeItem] at hi
    rcases hi with rfl | hi
    · cases hlinked
    · rw [met_not_isFault false hn i (hsub hi)] at hfault
      cases hfault
  · rw [hno] at h
    cases h

/-- A FAULT without a link that merges leaves the link of the item that waited. -/
theorem offerFault_merges_unlinked {q : Queue} {r : Report} {pre post : List Item} {old : Item}
    (hw : q.waiting = pre ++ old :: post) (hold : old.notice.isFault r.source = true)
    (hn : ∀ i ∈ pre ++ post, i.notice.isFault r.source = false) :
    (q.offerFault r false).taken = true ∧ (q.offerFault r false).displaced = none
      ∧ (q.offerFault r false).queue.waitingLink r.source = old.linked := by
  obtain ⟨older, hnotice, hs⟩ := (isFault_iff _ _).1 hold
  have hmet : Spec.met q r.source false
      = pre.filter (fun i => decide (i.notice ≠ .resolve r.source))
        ++ old :: post.filter (fun i => decide (i.notice ≠ .resolve r.source)) := by
    rw [Spec.met, hw, relinked_false, List.map_id, List.filter_append,
      List.filter_cons_of_pos (by rw [hnotice]; exact decide_eq_true nofun)]
  have hothers : ∀ i ∈ pre.filter (fun i => decide (i.notice ≠ .resolve r.source))
      ++ post.filter (fun i => decide (i.notice ≠ .resolve r.source)), i.notice.isFault r.source = false := by
    rw [← List.filter_append]
    exact fun i hi => hn i (List.mem_filter.1 hi).1
  rw [offerFault_merges hmet hnotice hs hothers]
  refine ⟨rfl, rfl, ?_⟩
  rw [Bool.eq_iff_iff, waitingLink_iff]
  refine ⟨fun ⟨i, hi, hlink⟩ => ?_, fun hl => ⟨_, (mem_placeItem _ _ _).2 (Or.inl rfl), ?_⟩⟩
  · obtain ⟨hlinked, hfault⟩ := (link_eq_some_iff _ _).1 hlink
    rcases (mem_placeItem _ _ _).1 hi with rfl | hi
    · exact hlinked
    · rw [hothers i hi] at hfault
      cases hfault
  · rw [← hs]
    exact link_of_fault (r := older.merge r false) rfl hl

/-! ### What an answer does to the station (R64, R66, R68) -/

theorem answered_of_none {a : Answer} (s : State) (h : a.displaced = none) : s.answered a = s.withQueue a.queue := by
  rw [State.answered, h]

/-- R64, R66: the record of a displaced linked item becomes UNSENT. -/
theorem answered_of_linked {a : Answer} {i : Item} {d : Report} (s : State) (h : a.displaced = some i)
    (hi : i.notice = .fault d) (hl : i.linked = true) : s.answered a
      = ((s.withQueue { a.queue.unlink d.source with loss := satInc a.queue.loss }).withLog
          (s.log.setState d.source .unsent)).setCause .queueLoss := by
  simp only [State.answered, h, State.displaced, link_of_fault hi hl]
  rfl

theorem answered_of_unlinked {a : Answer} {i : Item} (s : State) (h : a.displaced = some i)
    (hi : (∀ d, i.notice ≠ .fault d) ∨ i.linked = false) : s.answered a
      = (s.withQueue { a.queue with loss := satInc a.queue.loss }).setCause .queueLoss := by
  simp only [State.answered, h, State.displaced, link_eq_none hi]
  rfl

theorem takeFault_linked_taken {s : State} {r : Report} (h : (s.queue.offerFault r true).taken = true) :
    s.takeFault r true = (s.answered (s.queue.offerFault r true)).markRecord r.source .queued := by
  simp only [State.takeFault, h, offerFault_waitingLink h, if_true]

theorem takeFault_linked_refused {s : State} {r : Report} (h : (s.queue.offerFault r true).taken = false) :
    s.takeFault r true = ((s.withQueue (s.queue.offerFault r true).queue).markRecord r.source .unsent).loseNotice := by
  simp only [State.takeFault, h, answered_of_none s (offerFault_refused h), Bool.false_eq_true, if_false, if_true]

theorem takeFault_unlinked_taken {s : State} {r : Report} (h : (s.queue.offerFault r false).taken = true) :
    s.takeFault r false = if (s.queue.offerFault r false).queue.waitingLink r.source
      then (s.answered (s.queue.offerFault r false)).markRecord r.source .queued
      else s.answered (s.queue.offerFault r false) := by
  simp only [State.takeFault, h, if_true]

theorem takeFault_unlinked_refused {s : State} {r : Report} (h : (s.queue.offerFault r false).taken = false) :
    s.takeFault r false = (s.withQueue (s.queue.offerFault r false).queue).loseNotice := by
  simp only [State.takeFault, h, answered_of_none s (offerFault_refused h), Bool.false_eq_true, if_false]

theorem setState_eq_modify (l : Log) (n : BitVec 5) (st : LocalState) :
    l.setState (n.setWidth 6) st = l.modify n (fun r => { r with state := st }) := by
  have hlt : n.setWidth 6 < (32 : BitVec 6) := by bv_omega
  have hw : (n.setWidth 6).setWidth 5 = n := by
    apply BitVec.eq_of_toNat_eq
    bv_omega
  rw [Log.setState, if_pos hlt, hw]

/-! ### UNSENT records are queued again (R77, R146) -/

theorem requeueUnsent_of_none {s : State} (h : ∀ r ∈ s.log.records, r.state ≠ .unsent) : s.requeueUnsent = s := by
  rw [State.requeueUnsent, List.filter_eq_nil_iff.2 fun r hr => by simpa using h r hr]
  rfl

theorem requeueUnsent_of_one {s : State} {pre post : List Record} {r : Record} (ht : s.log.records = pre ++ r :: post)
    (hpre : ∀ x ∈ pre, x.state ≠ .unsent) (hr : r.state = .unsent) (hpost : ∀ x ∈ post, x.state ≠ .unsent) :
    s.requeueUnsent = s.takeFault r.report true := by
  rw [State.requeueUnsent, ht, List.filter_append, List.filter_cons_of_pos (by simpa using hr),
    List.filter_eq_nil_iff.2 fun x hx => by simpa using hpre x hx,
    List.filter_eq_nil_iff.2 fun x hx => by simpa using hpost x hx]
  rfl

/-- Settles O44: linked FAULT, FAULT without a link, raised fault, state of a record, and the records queued again. -/
theorem recordsFollowTheQueue : Obligations.RecordsFollowTheQueue := by
  refine ⟨⟨fun s r a _ ha => ?linked, fun s r a ha => ?unlinked, fun s n severity detail l hl => ?raised,
    fun l n st => ?state⟩, fun s => requeueUnsent_of_none, fun s pre post r => requeueUnsent_of_one, fun s => rfl⟩
  case linked =>
    subst ha
    rw [bump_eq]
    refine ⟨fun ht hd => ?_, fun i d ht hd hi hl _ => ?_, fun i ht hd hi => ?_, fun ht => ?_⟩
    · rw [takeFault_linked_taken ht, answered_of_none s hd]
      rfl
    · rw [takeFault_linked_taken ht, answered_of_linked s hd hi hl]
      rfl
    · rw [takeFault_linked_taken ht, answered_of_unlinked s hd hi]
      rfl
    · rw [takeFault_linked_refused ht]
      rfl
  case unlinked =>
    subst ha
    rw [bump_eq]
    refine ⟨fun ht _ => ?_, fun hn ht => ?_, fun pre post old hw hold hn => ?_⟩
    · rw [takeFault_unlinked_refused ht]
      rfl
    · rw [takeFault_unlinked_taken ht, offerFault_waitingLink_of_alone hn ht, if_neg Bool.false_ne_true]
      exact ⟨answered_of_none s, fun i d hd hi hl => answered_of_linked s hd hi hl, fun i hd hi => answered_of_unlinked s hd hi⟩
    · obtain ⟨ht, hd, hlink⟩ := offerFault_merges_unlinked hw hold hn
      rw [takeFault_unlinked_taken ht, hlink, answered_of_none s hd]
      rfl
  case raised =>
    subst hl
    rfl
  case state =>
    rw [setState_eq_modify]
    exact ⟨modify_records _ _ _, rfl, rfl⟩

end Sys2Proof.Machine
end

section
/-! PROOFS. The bus up to the ack window: BUS_IDLE, FRAME_START, ARBITRATION_LOSS and BODY_RECEIVED (chapters 3 to 6). -/

namespace Sys2Proof.Machine

/-! ### A ready station -/

theorem ready_operating {s : State} (h : s.ready) : s.operating = true := h.1

theorem ready_settleDue {s : State} (h : s.ready) : s.settleDue = s := settleDue_of_nothingDue h.2

/-- Outside MEMBER and LEAVING a station has no roster duties (R85). -/
theorem duties_of_legal {s : State} (h : s.legal) (hv : s.copyValid = false) : s.ctl.duties = none := h.1 hv

/-! ### BUS_IDLE and FRAME_START (R40, R42, R69, R92) -/

theorem askRoster_eq (s : State) : s.askRoster = s.withCtl (Spec.asked s) := by
  cases hd : s.ctl.duties with
  | none => simp [State.askRoster, Spec.asked, hd]
  | some d => cases ho : s.chassis.rosterOwed d <;> simp [State.askRoster, Spec.asked, State.rosterOwed, hd, ho]

theorem asked_station (s : State) : (Spec.asked s).station = s.ctl.station := by
  unfold Spec.asked
  split
  · split <;> rfl
  · rfl

theorem asked_of_owed {s : State} {b : Body} (h : s.rosterOwed = some b) : Spec.asked s = s.ctl := by
  rw [Spec.asked, h]
  split <;> rfl

theorem asked_of_no_duties {s : State} (h : s.ctl.duties = none) : Spec.asked s = s.ctl := by rw [Spec.asked, h]

theorem waitsIdle_iff (e : Engine) :
    e.waitsIdle = true ↔ e.breaking = false ∧ (e.bus = .brokenWait ∨ e.phase = .gap) := by
  simp [Engine.waitsIdle]

theorem exec_busIdle {s : State} (h : s.ready) (hw : s.engine.waitsIdle = true) :
    exec .busIdle s = .next ((s.withCtl (Spec.asked s)).withEngine s.engine.toIdle) := by
  show execBusIdle s = _
  simp only [execBusIdle, ready_settleDue h, ready_operating h, hw, and_self, if_true, askRoster_eq]
  rfl

theorem exec_frameStart_other {s : State} (h : s.ready) (hbus : s.engine.bus = .idle) : exec (.frameStart true) s
    = .next ((s.withCtl (Spec.asked s)).withEngine (Spec.started s.engine none)).hearStart := by
  show execFrameStart true s = _
  simp only [execFrameStart, ready_settleDue h, ready_operating h, hbus, and_self, if_true, askRoster_eq]
  rfl

theorem exec_frameStart_own {s : State} {path : Path} {f : Frame} (h : s.ready) (hbus : s.engine.bus = .idle)
    (ho : s.offer = some (path, f)) : exec (.frameStart false) s = .next (s.askRoster.beginOwn path f) := by
  show execFrameStart false s = _
  simp only [execFrameStart, ready_settleDue h, ready_operating h, hbus, and_self, if_true, Bool.false_eq_true, if_false, ho]

theorem exec_frameStart_nothing {s : State} (h : s.ready) (hbus : s.engine.bus = .idle) (ho : s.offer = none) :
    exec (.frameStart false) s = .next (s.withCtl (Spec.asked s)) := by
  show execFrameStart false s = _
  simp only [execFrameStart, ready_settleDue h, ready_operating h, hbus, and_self, if_true, Bool.false_eq_true, if_false, ho,
    askRoster_eq]

theorem hearStart_of_adrift {s : State} (h : s.ctl.station = .adrift) :
    s.hearStart = s.withCtl { s.ctl with joinTimer := some s.items.joinWait } := by rw [State.hearStart, if_pos h]

theorem hearStart_of_other {s : State} (h : s.ctl.station ≠ .adrift) : s.hearStart = s := by rw [State.hearStart, if_neg h]

theorem copyValid_iff (s : State) : s.copyValid = true ↔ s.ctl.station = .member ∨ s.ctl.station = .leaving := by
  unfold State.copyValid
  cases s.ctl.station <;> simp [Station.valid]

theorem copyValid_false_of {s : State} (hm : s.ctl.station ≠ .member) (hl : s.ctl.station ≠ .leaving) :
    s.copyValid = false := by
  rw [← Bool.not_eq_true, copyValid_iff]
  exact fun h => h.elim hm hl

/-- Settles O20. -/
theorem busIdleAndAnothersStartBit : Obligations.BusIdleAndAnothersStartBit := by
  refine fun s h => ⟨fun hb hw => exec_busIdle h ((waitsIdle_iff _).2 ⟨hb, hw⟩), fun hbus hn => ?other, fun hbus ha hl => ?adrift⟩
  all_goals rw [exec_frameStart_other h hbus]
  case other =>
    rw [hearStart_of_other]
    show (Spec.asked s).station ≠ .adrift
    rwa [asked_station]
  case adrift =>
    have hd := duties_of_legal hl (copyValid_false_of (by simp [ha]) (by simp [ha]))
    rw [asked_of_no_duties hd]
    exact congrArg Host.Outcome.next (hearStart_of_adrift (s := (s.withCtl s.ctl).withEngine _) ha)

/-! ### The frame that the station offers (R42, R88) -/

theorem offer_roster {s : State} {b : Body} (h : s.ctl.station = .member ∨ s.ctl.station = .leaving)
    (hb : s.rosterOwed = some b) : s.offer = some (.roster, { urgency := 0, sender := s.self, body := b }) := by
  rcases h with h | h <;> rw [State.offer, h, hb]

theorem offer_queue {s : State} (h : s.ctl.station = .member ∨ s.ctl.station = .leaving) (hb : s.rosterOwed = none) :
    s.offer = s.queue.head.map (fun x =>
      (.queue, { urgency := BitVec.ofNat 3 x.2, sender := s.self, body := .notice x.1 })) := by
  rcases h with h | h <;> rw [State.offer, h, hb]

theorem offer_join {s : State} (h : s.ctl.station = .joining) : s.offer
    = if s.ctl.joinOwed then some (.join, { urgency := 5, sender := s.self, body := .join }) else none := by
  rw [State.offer, h]

theorem offer_none {s : State} (h : s.ctl.station = .transfer ∨ s.ctl.station = .detached ∨ s.ctl.station = .adrift) :
    s.offer = none := by
  rcases h with h | h | h <;> rw [State.offer, h]

theorem head_of_inFlight {q : Queue} {h : Head} (hf : q.inFlight = some h) : q.head = some (h.item.notice, h.urgency) := by
  rw [Queue.head, hf]

theorem head_of_waiting {q : Queue} {i : Item} {rest : List Item} (hf : q.inFlight = none) (hw : q.waiting = i :: rest) :
    q.head = some (i.notice, i.notice.urgency) := by
  rw [Queue.head, hf, hw]

theorem head_of_empty {q : Queue} (h : q.items = []) : q.head = none := by
  unfold Queue.items at h
  cases hf : q.inFlight with
  | some x => simp [hf] at h
  | none =>
    simp only [hf] at h
    rw [Queue.head, hf, h]

theorem startHead_of_inFlight {s : State} {h : Head} (hf : s.queue.inFlight = some h) : s.startHead = s := by
  rw [State.startHead, hf]

/-- R69: the head's first arbitration makes it in flight, and a linked record IN_FLIGHT. -/
theorem startHead_of_waiting {s : State} {i : Item} {rest : List Item} (hf : s.queue.inFlight = none)
    (hw : s.queue.waiting = i :: rest) : s.startHead
      = (s.withQueue { s.queue with inFlight := some (Head.start i), waiting := rest }).withLog
          (i.link.elim s.log (fun source => s.log.setState source .inFlight)) := by
  have hq : s.queue.startHead = { s.queue with inFlight := some (Head.start i), waiting := rest } := by
    rw [Queue.startHead, hf, hw]
  have hlink : s.queue.startHead.headLink = i.link := by rw [hq]; rfl
  unfold State.startHead
  rw [hf, hlink, hq]
  cases i.link <;> rfl

/-- Settles O21, by the path that offers. -/
theorem startBitOfAnOfferedFrame : Obligations.StartBitOfAnOfferedFrame := by
  refine ⟨fun s h hbus hst hb => ⟨fun x hx => ?flying, fun i rest hf hw => ?first⟩, fun s h hbus => ⟨fun hst b hb => ?roster,
    fun hst ho => ?join, fun hno => exec_frameStart_nothing h hbus ?nothing⟩⟩
  case flying =>
    have ho := offer_queue hst hb
    rw [head_of_inFlight hx] at ho
    rw [exec_frameStart_own h hbus ho, askRoster_eq]
    exact congrArg Host.Outcome.next (startHead_of_inFlight hx)
  case first =>
    have ho := offer_queue hst hb
    rw [head_of_waiting hf hw] at ho
    rw [exec_frameStart_own h hbus ho, askRoster_eq]
    refine ⟨_, congrArg Host.Outcome.next (startHead_of_waiting (s := (s.withCtl (Spec.asked s)).withEngine _) hf hw), rfl,
      rfl, rfl, fun r hr hl => ?_, fun hno => ?_, rfl, rfl, rfl, rfl, rfl, rfl⟩
    · rw [link_of_fault hr hl]
      rfl
    · rw [link_eq_none hno]
      rfl
  case roster =>
    rw [exec_frameStart_own h hbus (offer_roster hst hb), askRoster_eq, asked_of_owed hb]
    rfl
  case join =>
    have hoffer := offer_join hst
    rw [ho, if_pos rfl] at hoffer
    rw [exec_frameStart_own h hbus hoffer, askRoster_eq]
    rfl
  case nothing =>
    rcases hno with hst | hst | hst | ⟨hst, ho⟩ | ⟨hst, hb, hq⟩
    · exact offer_none (Or.inl hst)
    · exact offer_none (Or.inr (Or.inl hst))
    · exact offer_none (Or.inr (Or.inr hst))
    · rw [offer_join hst, ho, if_neg Bool.false_ne_true]
    · rw [offer_queue hst hb, head_of_empty hq]
      rfl

/-! ### Arbitration losses (R44, R71) -/

theorem exec_arbitrationLoss {s : State} (atUrgency : Bool) (h : s.ready) (hbus : s.engine.bus = .arbitrating)
    (hphase : s.engine.phase = .body) (hb : s.engine.breaking = false) : exec (.arbitrationLoss atUrgency) s
      = .next (s.reportLoss.withEngine
          { s.reportLoss.engine with bus := .receiving, sent := none, lostAtSender := !atUrgency }) := by
  have hsending : s.engine.sending = true := by simp [Engine.sending, hbus, hphase, hb]
  show execArbitrationLoss atUrgency s = _
  simp only [execArbitrationLoss, ready_settleDue h, ready_operating h, hsending, hbus, hphase, and_self, if_true]

theorem reportLoss_of_queue {s : State} {x : Sent} {h : Head} (hs : s.engine.sent = some x) (hp : x.path = .queue)
    (hf : s.queue.inFlight = some h) :
    s.reportLoss = s.withQueue { s.queue with inFlight := some h.loseArbitration } := by
  rw [State.reportLoss, hs]
  dsimp only
  rw [hp, Queue.modifyHead, hf]
  rfl

theorem reportLoss_of_other {s : State} {x : Sent} (hs : s.engine.sent = some x) (hp : x.path ≠ .queue) :
    s.reportLoss = s := by
  rw [State.reportLoss, hs]
  dsimp only
  cases hx : x.path with
  | queue => exact absurd hx hp
  | roster => rfl
  | join => rfl

theorem loseArbitration_below {h : Head} (hl : h.losses < 7) : h.loseArbitration = { h with losses := h.losses + 1 } := by
  rw [Head.loseArbitration, if_neg (Nat.not_le.2 hl)]

theorem loseArbitration_eighth {h : Head} (hl : h.losses = 7) : h.loseArbitration = { h with agingDue := true } := by
  rw [Head.loseArbitration, if_pos hl.ge]

theorem fireAging_of_due {s : State} {h : Head} (hf : s.queue.inFlight = some h) (hd : h.agingDue = true) :
    s.fireAging = s.withQueue { s.queue with inFlight := some h.ages } := by
  rw [State.fireAging, hf]
  dsimp only
  rw [if_pos hd, Queue.modifyHead, hf]
  rfl

/-- Settles O22. -/
theorem arbitrationLossAndAging : Obligations.ArbitrationLossAndAging := by
  intro s h hbus hphase hb atUrgency x hs
  rw [exec_arbitrationLoss atUrgency h hbus hphase hb]
  refine ⟨fun hp => ?_, fun hp y hf hl => ?_, fun hp y hf hl => ⟨_, rfl, ?_⟩⟩
  · rw [reportLoss_of_other hs hp]
  · rw [reportLoss_of_queue hs hp hf, loseArbitration_below hl]
    rfl
  · obtain ⟨haging, -⟩ := h.2.1 y hf
    rw [reportLoss_of_queue hs hp hf, loseArbitration_eighth hl]
    refine (congrArg Host.Outcome.next (fireAging_of_due rfl rfl)).trans ?_
    rw [Head.ages, ← haging]
    rfl

end Sys2Proof.Machine
end

section
/-! PROOFS. BODY_RECEIVED: what a body does when it is read, and the ack slot (R45, R47, R48, R56, R57, R86, R105). -/

namespace Sys2Proof.Machine

/-! ### The Frame Engine at the end of a body (R45, R47) -/

theorem breaks_eq (e : Engine) (bits : BodyBits) : e.breaks bits = Spec.breaks e bits := by
  unfold Engine.breaks Engine.readsOther Spec.breaks
  cases e.sent <;> rfl

theorem takeBody_eq (e : Engine) (bits : BodyBits) : e.takeBody bits = Spec.received e bits := by
  rw [Engine.takeBody, breaks_eq]
  rfl

theorem goodBody_iff (s : State) (f : Frame) : s.goodBody = some f ↔ Spec.heard s f := by
  unfold State.goodBody Spec.heard
  cases s.engine.rx <;> simp

theorem exec_bodyReceived_bad {s : State} {bits : BodyBits} (h : Spec.reading s) (hb : readFrame bits = none) :
    exec (.bodyReceived bits) s = .next (s.withEngine (Spec.received s.engine bits)) := by
  obtain ⟨hready, hphase⟩ := h
  have hbad : (s.withEngine (Spec.received s.engine bits)).goodBody = none := hb
  show execBodyReceived bits s = _
  simp only [execBodyReceived, ready_settleDue hready, ready_operating hready, hphase, and_self, if_true, takeBody_eq, hbad]

theorem exec_bodyReceived_good {s : State} {bits : BodyBits} {f : Frame} (h : Spec.reading s)
    (hb : readFrame bits = some f) :
    exec (.bodyReceived bits) s = .next ((s.withEngine (Spec.received s.engine bits)).passOn f) := by
  obtain ⟨hready, hphase⟩ := h
  have hgood : (s.withEngine (Spec.received s.engine bits)).goodBody = some f := hb
  show execBodyReceived bits s = _
  simp only [execBodyReceived, ready_settleDue hready, ready_operating hready, hphase, and_self, if_true, takeBody_eq, hgood]

/-! ### What each station hears in a good body -/

theorem isJoin_iff (f : Frame) : f.isJoin = true ↔ f.body = .join := by rw [Frame.isJoin, decide_eq_true_eq]

theorem isJoin_false_iff (f : Frame) : f.isJoin = false ↔ f.body ≠ .join := by rw [← Bool.not_eq_true, isJoin_iff]

theorem setHas_map_false_iff (c : Chassis) (a : Addr) : setHas c.map a = false ↔ c.record a = none := by
  rw [setHas_map, Option.isSome_eq_false_iff, Option.isNone_iff_eq_none]

/-- R57: a frame is foreign in step, when it is no JOIN and its sender no member. -/
theorem foreign_iff (f : Frame) (s : State) : s.foreign f = true ↔
    s.ctl.station.inStep = true ∧ f.body ≠ .join ∧ s.chassis.record f.sender = none := by
  rw [State.foreign, Bool.and_eq_true, Bool.and_eq_true, Bool.not_eq_true', Bool.not_eq_true', isJoin_false_iff,
    setHas_map_false_iff, and_assoc]

theorem notSent_iff (s : State) : s.notSent = true ↔ s.engine.sent = none ∧ s.engine.lostAtSender = false := by
  rw [State.notSent, Bool.and_eq_true, Option.isNone_iff_eq_none, Bool.not_eq_true']

theorem hearDuplicate_of_not {f : Frame} {s : State}
    (h : s.ctl.station.inStep = true ∨ f.sender ≠ s.self ∨ s.engine.sent ≠ none ∨ s.engine.lostAtSender = true) :
    s.hearDuplicate f = s := by
  refine if_neg fun ⟨hstep, hself, hn⟩ => ?_
  obtain ⟨hsent, hlost⟩ := (notSent_iff s).1 hn
  rcases h with h | h | h | h
  · rw [hstep] at h
    cases h
  · exact h hself
  · exact h hsent
  · rw [hlost] at h
    cases h

theorem hearDuplicate_of_duplicate {f : Frame} {s : State} (hstep : s.ctl.station.inStep = false) (hself : f.sender = s.self)
    (hsent : s.engine.sent = none) (hlost : s.engine.lostAtSender = false) : s.hearDuplicate f = s.busFault 0x00000003 :=
  if_pos ⟨hstep, hself, (notSent_iff s).2 ⟨hsent, hlost⟩⟩

theorem hearForeign_of_not {f : Frame} {s : State} (h : s.foreign f = false ∨ setHas s.engine.foreign f.sender = true) :
    s.hearForeign f = s := by
  refine if_neg fun ⟨hforeign, hnew⟩ => ?_
  rcases h with h | h
  · rw [hforeign] at h
    cases h
  · rw [hnew] at h
    cases h

theorem foreign_false_of_outside {f : Frame} {s : State} (h : s.ctl.station.inStep = false) : s.foreign f = false := by
  rw [State.foreign, h, Bool.false_and, Bool.false_and]

theorem foreign_false_of_join {f : Frame} {s : State} (h : f.body = .join) : s.foreign f = false := by
  rw [← Bool.not_eq_true, foreign_iff]
  exact fun ⟨_, hno, _⟩ => hno h

theorem foreign_false_of_member {f : Frame} {s : State} (h : s.chassis.record f.sender ≠ none) : s.foreign f = false := by
  rw [← Bool.not_eq_true, foreign_iff]
  exact fun ⟨_, _, hno⟩ => h hno

theorem hearJoining_of_not {f : Frame} {s : State} (h : s.ctl.station ≠ .joining) : s.hearJoining f = s := if_neg h

theorem hearJoin_of_not {f : Frame} {s : State} (h : s.ctl.duties = none ∨ f.body ≠ .join) : s.hearJoin f = s := by
  unfold State.hearJoin
  cases hd : s.ctl.duties with
  | none => rfl
  | some d =>
    refine if_neg fun ⟨hjoin, _⟩ => ?_
    rcases h with h | h
    · rw [hd] at h
      cases h
    · exact h ((isJoin_iff f).1 hjoin)

theorem hearJoin_of_duties {f : Frame} {s : State} {d : Duties} (hd : s.ctl.duties = some d) (hjoin : f.body = .join) :
    s.hearJoin f = s.withCtl { s.ctl with duties := some { d with
      list := if f.sender ≠ s.self ∧ f.sender ∉ d.list then d.list ++ [f.sender] else d.list } } := by
  simp only [State.hearJoin, hd, (isJoin_iff f).2 hjoin, true_and]
  split
  · rfl
  · rw [← hd]
    rfl

theorem inStep_ne_joining {st : Station} (h : st.inStep = true) : st ≠ .joining := by
  rintro rfl
  cases h

/-- Nothing is heard in a body that gives no reason to. -/
theorem passOn_of_quiet {f : Frame} {s : State}
    (hdup : s.ctl.station.inStep = true ∨ f.sender ≠ s.self ∨ s.engine.sent ≠ none ∨ s.engine.lostAtSender = true)
    (hforeign : s.foreign f = false ∨ setHas s.engine.foreign f.sender = true) (hst : s.ctl.station ≠ .joining)
    (hjoin : s.ctl.duties = none ∨ f.body ≠ .join) : s.passOn f = s := by
  rw [State.passOn, hearDuplicate_of_not hdup, hearForeign_of_not hforeign, hearJoining_of_not hst, hearJoin_of_not hjoin]

/-- R57: the first foreign frame of a sender is reported. -/
theorem passOn_of_foreign {f : Frame} {s : State} (hstep : s.ctl.station.inStep = true) (hbody : f.body ≠ .join)
    (hsender : s.chassis.record f.sender = none) (hnew : setHas s.engine.foreign f.sender = false) :
    s.passOn f = (s.withEngine { s.engine with foreign := s.engine.foreign ||| setSingle f.sender }).busFault
      (0x00000100 + f.sender.setWidth 32) := by
  have hheard : s.hearForeign f = (s.withEngine { s.engine with foreign := s.engine.foreign ||| setSingle f.sender }).busFault
      (0x00000100 + f.sender.setWidth 32) := if_pos ⟨(foreign_iff f s).2 ⟨hstep, hbody, hsender⟩, hnew⟩
  have hctl : (s.hearForeign f).ctl = s.ctl := by
    rw [hheard]
    exact (busFault_local _ _).ctl
  rw [State.passOn, hearDuplicate_of_not (Or.inl hstep), hearJoining_of_not, hearJoin_of_not (Or.inr hbody), hheard]
  rw [hctl]
  exact inStep_ne_joining hstep

/-- R56: a duplicate address is reported; outside JOINING nothing else is heard. -/
theorem passOn_of_duplicate {f : Frame} {s : State} (hstep : s.ctl.station.inStep = false) (hst : s.ctl.station ≠ .joining)
    (hd : s.ctl.duties = none) (hself : f.sender = s.self) (hsent : s.engine.sent = none)
    (hlost : s.engine.lostAtSender = false) : s.passOn f = s.busFault 0x00000003 := by
  have hctl := (busFault_local 0x00000003 s).ctl
  rw [State.passOn, hearDuplicate_of_duplicate hstep hself hsent hlost,
    hearForeign_of_not (Or.inl (foreign_false_of_outside (by rw [hctl]; exact hstep))),
    hearJoining_of_not (by rw [hctl]; exact hst), hearJoin_of_not (Or.inl (by rw [hctl]; exact hd))]

theorem hearJoining_of_self {f : Frame} {s : State} (hst : s.ctl.station = .joining) (hself : f.sender = s.self) :
    s.hearJoining f = if s.notSent then s.withCtl { s.ctl with heardTraffic := true } else s := by
  rw [State.hearJoining, if_pos hst, if_pos hself]

/-- R105, Table 6-3. -/
theorem hearJoining_of_other {f : Frame} {s : State} (hst : s.ctl.station = .joining) (hother : f.sender ≠ s.self) :
    s.hearJoining f = s.withCtl { s.ctl with
      heardTraffic := s.ctl.heardTraffic || decide (¬(f.body = .join ∧ s.self < f.sender))
      heardList := if f.body = .join ∧ s.self < f.sender ∧ f.sender ∉ s.ctl.heardList
        then s.ctl.heardList ++ [f.sender] else s.ctl.heardList } := by
  rw [State.hearJoining, if_pos hst, if_neg hother]
  by_cases hj : f.body = .join ∧ s.self < f.sender
  · have hn : decide (¬(f.body = .join ∧ s.self < f.sender)) = false := decide_eq_false (not_not.2 hj)
    rw [if_pos ⟨(isJoin_iff f).2 hj.1, hj.2⟩, hn, Bool.or_false]
    by_cases hm : f.sender ∈ s.ctl.heardList
    · rw [if_pos hm, if_neg fun h => h.2.2 hm]
      rfl
    · rw [if_neg hm, if_pos ⟨hj.1, hj.2, hm⟩]
  · rw [if_neg fun h => hj ⟨(isJoin_iff f).1 h.1, h.2⟩, if_neg fun h => hj ⟨h.1, h.2.1⟩, decide_eq_true hj, Bool.or_true]

theorem hearJoining_duties (f : Frame) (s : State) : (s.hearJoining f).ctl.duties = s.ctl.duties := by
  unfold State.hearJoining
  repeat' split
  all_goals rfl

theorem passOn_of_joining {f : Frame} {s : State} (hst : s.ctl.station = .joining) (hd : s.ctl.duties = none) :
    s.passOn f = (s.hearDuplicate f).hearJoining f := by
  have hctl := (hearDuplicate_local f s).ctl
  have hstep : (s.hearDuplicate f).ctl.station.inStep = false := by rw [hctl, hst]; rfl
  have hj : ((s.hearDuplicate f).hearJoining f).ctl.duties = none := by rw [hearJoining_duties, hctl, hd]
  rw [State.passOn, hearForeign_of_not (Or.inl (foreign_false_of_outside hstep)), hearJoin_of_not (Or.inl hj)]

/-- R56, R105: a JOINING station that hears its own address used reports it, and marks traffic. -/
theorem passOn_of_joining_duplicate {f : Frame} {s : State} (hst : s.ctl.station = .joining) (hd : s.ctl.duties = none)
    (hself : f.sender = s.self) (hsent : s.engine.sent = none) (hlost : s.engine.lostAtSender = false) :
    s.passOn f = (s.busFault 0x00000003).withCtl { s.ctl with heardTraffic := true } := by
  have hstep : s.ctl.station.inStep = false := by rw [hst]; rfl
  have l := busFault_local 0x00000003 s
  have hself' : f.sender = (s.busFault 0x00000003).self := by
    rw [State.self, l.straps]
    exact hself
  have hn : (s.busFault 0x00000003).notSent = true := by
    rw [notSent_iff, l.engine]
    exact ⟨hsent, hlost⟩
  rw [passOn_of_joining hst hd, hearDuplicate_of_duplicate hstep hself hsent hlost,
    hearJoining_of_self (by rw [l.ctl]; exact hst) hself', if_pos hn, l.ctl]

theorem passOn_of_joining_own {f : Frame} {s : State} (hst : s.ctl.station = .joining) (hd : s.ctl.duties = none)
    (hself : f.sender = s.self) (hno : s.engine.sent ≠ none ∨ s.engine.lostAtSender = true) : s.passOn f = s := by
  rw [passOn_of_joining hst hd, hearDuplicate_of_not (Or.inr (Or.inr hno)), hearJoining_of_self hst hself, if_neg]
  rw [notSent_iff]
  exact fun ⟨hsent, hlost⟩ => hno.elim (fun hs => hs hsent) fun hs => Bool.false_ne_true (hlost.symm.trans hs)

theorem passOn_of_joining_other {f : Frame} {s : State} (hst : s.ctl.station = .joining) (hd : s.ctl.duties = none)
    (hother : f.sender ≠ s.self) : s.passOn f = s.withCtl { s.ctl with
      heardTraffic := s.ctl.heardTraffic || decide (¬(f.body = .join ∧ s.self < f.sender))
      heardList := if f.body = .join ∧ s.self < f.sender ∧ f.sender ∉ s.ctl.heardList
        then s.ctl.heardList ++ [f.sender] else s.ctl.heardList } := by
  rw [passOn_of_joining hst hd, hearDuplicate_of_not (Or.inr (Or.inl hother)), hearJoining_of_other hst hother]

/-- R86: the roster station lists the sender of a JOIN. -/
theorem passOn_of_listed {f : Frame} {s : State} {d : Duties} (hstep : s.ctl.station.inStep = true)
    (hd : s.ctl.duties = some d) (hb : f.body = .join) :
    s.passOn f = s.withCtl { s.ctl with duties := some { d with
      list := if f.sender ≠ s.self ∧ f.sender ∉ d.list then d.list ++ [f.sender] else d.list } } := by
  rw [State.passOn, hearDuplicate_of_not (Or.inl hstep), hearForeign_of_not (Or.inl (foreign_false_of_join hb)),
    hearJoining_of_not (inStep_ne_joining hstep), hearJoin_of_duties hd hb]

theorem outside_facts {s : State} (h : s.ctl.station = .detached ∨ s.ctl.station = .adrift) (hl : s.legal) :
    s.ctl.station.inStep = false ∧ s.ctl.station ≠ .joining ∧ s.ctl.duties = none := by
  rcases h with h | h <;> rw [h] <;> exact ⟨rfl, nofun, duties_of_legal hl (by rw [State.copyValid, h]; rfl)⟩

theorem exec_bodyReceived_hears {s t : State} {bits : BodyBits} {f : Frame} (h : Spec.reading s)
    (hb : readFrame bits = some f) (ht : (s.withEngine (Spec.received s.engine bits)).passOn f = t) :
    exec (.bodyReceived bits) s = .next t := by
  rw [exec_bodyReceived_good h hb, ht]

/-- Settles O23: what is heard depends on the body, on its sender and on the station's state. -/
theorem bodyReceived : Obligations.BodyReceived := by
  refine ⟨fun s bits h => ⟨exec_bodyReceived_bad h, fun f hf hb hstep hsender => exec_bodyReceived_hears h hf ?member⟩,
    fun s bits f h hf => ?unknown, fun s bits f h hf => ?joins⟩
  case member =>
    exact passOn_of_quiet (Or.inl hstep) (Or.inl (foreign_false_of_member hsender)) (inStep_ne_joining hstep) (Or.inr hb)
  case unknown =>
    refine ⟨fun hstep hb hsender => ⟨fun hold => exec_bodyReceived_hears h hf ?old, fun hnew =>
      exec_bodyReceived_hears h hf (passOn_of_foreign hstep hb hsender hnew)⟩, fun hst hself hsent hlost hl =>
      exec_bodyReceived_hears h hf ?duplicate, fun hst hno hl => exec_bodyReceived_hears h hf ?quiet, fun hstep hb hd =>
      exec_bodyReceived_hears h hf ?join⟩
    case old => exact passOn_of_quiet (Or.inl hstep) (Or.inr hold) (inStep_ne_joining hstep) (Or.inr hb)
    case duplicate =>
      obtain ⟨hstep, hjoining, hd⟩ := outside_facts hst hl
      exact passOn_of_duplicate hstep hjoining hd hself hsent hlost
    case quiet =>
      obtain ⟨hstep, hjoining, hd⟩ := outside_facts hst hl
      exact passOn_of_quiet (Or.inr hno) (Or.inl (foreign_false_of_outside hstep)) hjoining (Or.inl hd)
    case join =>
      exact passOn_of_quiet (Or.inl hstep) (Or.inl (foreign_false_of_join hb)) (inStep_ne_joining hstep) (Or.inl hd)
  case joins =>
    refine ⟨fun hst hl => ?joining, fun d hstep hd hb => exec_bodyReceived_hears h hf ?listed⟩
    case joining =>
      have hd := duties_of_legal hl (copyValid_false_of (by simp [hst]) (by simp [hst]))
      refine ⟨fun hself hsent hlost => exec_bodyReceived_hears h hf ?duplicate, fun hself hno =>
        exec_bodyReceived_hears h hf ?own, fun hother => exec_bodyReceived_hears h hf ?other⟩
      case duplicate =>
        have hheard := passOn_of_joining_duplicate (s := s.withEngine (Spec.received s.engine bits)) hst hd hself hsent hlost
        rw [hheard, State.busFault, State.withEngine_ctl]
      case own =>
        have hheard := passOn_of_joining_own (s := s.withEngine (Spec.received s.engine bits)) hst hd hself hno
        rw [hheard]
      case other =>
        have hheard := passOn_of_joining_other (s := s.withEngine (Spec.received s.engine bits)) hst hd hother
        rw [hheard, State.withEngine_ctl]
        rfl
    case listed =>
      have hheard := passOn_of_listed (s := s.withEngine (Spec.received s.engine bits)) hstep hd hb
      rw [hheard, State.withEngine_ctl]
      rfl

/-! ### The ack slot (R48) -/

theorem admits_iff (b : Body) (a : Addr) : b.admits a = true ↔ ∃ r, b = .roster r ∧ r.admitted = some a := by
  cases b <;> simp [Body.admits]

theorem inStep_iff (st : Station) : st.inStep = true ↔ st = .member ∨ st = .leaving ∨ st = .transfer := by
  cases st <;> simp [Station.inStep]

/-- The station acknowledges a good body of a frame. -/
def State.acknowledges (f : Frame) (s : State) : Bool :=
  (s.ctl.station.inStep && !f.isJoin && setHas s.chassis.map f.sender)
    || (decide (s.ctl.station = .joining) && f.body.admits s.self)

theorem acknowledges_iff (f : Frame) (s : State) : s.acknowledges f = true ↔
    ((s.ctl.station = .member ∨ s.ctl.station = .leaving ∨ s.ctl.station = .transfer)
        ∧ f.body ≠ .join ∧ s.chassis.record f.sender ≠ none)
      ∨ (s.ctl.station = .joining ∧ ∃ r, f.body = .roster r ∧ r.admitted = some s.straps.addr) := by
  rw [State.acknowledges, Bool.or_eq_true, Bool.and_eq_true, Bool.and_eq_true, Bool.and_eq_true, inStep_iff,
    Bool.not_eq_true', isJoin_false_iff, setHas_map, Option.isSome_iff_ne_none, decide_eq_true_eq, admits_iff, and_assoc]
  rfl

theorem drivesAck_eq (s : State) : s.drivesAck
    = (s.operating && decide (s.engine.phase = .tail) && !s.engine.breaking && s.goodBody.any s.acknowledges) := by
  unfold State.drivesAck
  cases s.goodBody <;> rfl

/-- Settles O24. -/
theorem ackSlotDriven : Obligations.AckSlotDriven := by
  intro s
  rw [drivesAck_eq, Bool.and_eq_true, Bool.and_eq_true, Bool.and_eq_true, decide_eq_true_eq, Bool.not_eq_true',
    Option.any_eq_true, and_assoc, and_assoc]
  refine and_congr_right fun _ => and_congr_right fun _ => and_congr_right fun _ => ⟨?_, ?_⟩
  · rintro ⟨f, hf, hack⟩
    obtain ⟨bits, hbits, hread⟩ := (goodBody_iff s f).1 hf
    exact ⟨bits, f, hbits, hread, (acknowledges_iff f s).1 hack⟩
  · rintro ⟨bits, f, hbits, hread, hack⟩
    exact ⟨f, (goodBody_iff s f).2 ⟨bits, hbits, hread⟩, (acknowledges_iff f s).2 hack⟩

end Sys2Proof.Machine
end

section
/-! PROOFS. Leaving the chassis and becoming MEMBER; the timers of the Roster Controller and the counts at their limits
(chapters 5 and 6). -/

namespace Sys2Proof.Machine

/-! ### Leaving the chassis (R18, R75, R118) -/

theorem headBack_log (s : State) (q : Queue) :
    (s.headBack q).log = s.queue.headLink.elim s.log (fun n => s.log.setState n .queued) := by
  unfold State.headBack
  cases s.queue.headLink <;> rfl

theorem headLink_of_none {q : Queue} (h : q.inFlight = none) : q.headLink = none := by rw [Queue.headLink, h]

theorem headLink_of_inFlight {q : Queue} {x : Head} (h : q.inFlight = some x) : q.headLink = x.item.link := by
  rw [Queue.headLink, h]

theorem link_fault_elim {i : Item} {r : Report} {α : Type} (hi : i.notice = .fault r) (a : α) (f : BitVec 6 → α) :
    i.link.elim a f = if i.linked then f r.source else a := by
  cases hl : i.linked with
  | true => rw [link_of_fault hi hl, if_pos rfl, Option.elim_some]
  | false => rw [link_eq_none (Or.inr hl), if_neg Bool.false_ne_true, Option.elim_none]

theorem link_other_elim {i : Item} {α : Type} (hi : ∀ r, i.notice ≠ .fault r) (a : α) (f : BitVec 6 → α) :
    i.link.elim a f = a := by
  rw [link_eq_none (Or.inl hi), Option.elim_none]

theorem policyLevel_eq (p : Policy) (l : Level) : policyLevel p l = Spec.detachedLevel p l := by
  cases p <;> cases l <;> rfl

/-- A Roster Controller without a copy's duties, admission, transfer or owed JOIN. -/
def Ctl.vacant (c : Ctl) : Prop :=
  c.station.valid = false ∧ c.duties = none ∧ c.admission = none ∧ c.transfer = none ∧ c.joinOwed = false

/-- The chassis abandoned, the station's new state entered, and the driven level taken anew. -/
theorem redrive_abandoned (s : State) {c : Ctl} (hc : c.vacant) : Spec.abandoned s (s.abandon.withCtl c).redrive := by
  obtain ⟨hvalid, hduties, hadmission, htransfer, howed⟩ := hc
  have hlog : (s.abandon.withCtl c).redrive.log = s.queue.headLink.elim s.log (fun n => s.log.setState n .queued) := by
    rw [State.redrive_log]
    exact headBack_log s _
  have hdriven : (s.abandon.withCtl c).redrive.outputs.driven
      = Spec.detachedLevel s.outputs.policy s.outputs.lastKnown := by
    rw [State.redrive_outputs, State.levelToDrive_invalid (s.abandon.withCtl c) hvalid, ← policyLevel_eq]
    simp [Outputs.drive]
  refine ⟨by simp [State.reset], by simp [State.copyValid, hvalid], by simpa using hduties, by simpa using hadmission,
    by simpa using htransfer, by simpa using howed, by simp, by simp, fun hf => ?_, fun x r hf hr => ?_, fun x hf hr => ?_,
    by simp [Outputs.drive], by simp [Outputs.drive], hdriven, by simp, by simp, by simp, by simp, by simp, by simp, by simp,
    by simp⟩
  · rw [hlog, headLink_of_none hf, Option.elim_none]
  · rw [hlog, headLink_of_inFlight hf, link_fault_elim hr]
  · rw [hlog, headLink_of_inFlight hf, link_other_elim hr]

theorem redrive_abandoned_causes (s : State) (c : Ctl) : (s.abandon.withCtl c).redrive.alerts.pending
    = s.alerts.pending
      ||| (if (s.abandon.withCtl c).redrive.outputs.driven = s.outputs.driven then 0 else 0x40) := by
  simp [Outputs.drive]

/-- An alert cause is not among what is kept. -/
theorem abandoned_setCause {s u : State} (k : Cause) (h : Spec.abandoned s u) : Spec.abandoned s (u.setCause k) := h

theorem driftOff_eq (s : State) : s.driftOff = ((s.abandon.withCtl { s.abandon.ctl with
    station := .adrift
    adriftLeaving := decide (s.ctl.station = .leaving)
    adriftFrames := 0
    joinTimer := some s.abandon.items.joinWait }).redrive).setCause .stepLoss := rfl

theorem driftOff_abandoned (s : State) : Spec.abandoned s s.driftOff := by
  rw [driftOff_eq]
  exact abandoned_setCause _ (redrive_abandoned s ⟨rfl, rfl, rfl, rfl, rfl⟩)

/-- Settles O31. -/
theorem goingAdrift : Obligations.GoingAdrift := by
  refine fun s code => ⟨s.driftOff, toAdrift_eq code s, driftOff_abandoned s, ?_⟩
  rw [driftOff_ctl]
  refine ⟨rfl, rfl, rfl, rfl, rfl, ?_⟩
  rw [driftOff_eq, State.setCause_causes, redrive_abandoned_causes]
  rfl

/-- The Roster Controller of a station that has become DETACHED (R101, R103). -/
def Ctl.detachedFor (c : Ctl) (cause : Removal) (autoJoin : Bool) (joinWait : Byte) : Ctl :=
  { c with
    station := .detached
    cause := cause
    joinPending := autoJoin
    joinTimer := if autoJoin then some joinWait else none
    duties := none
    admission := none
    transfer := none
    joinOwed := false }

theorem toDetached_eq (cause : Removal) (autoJoin : Bool) (s : State) : s.toDetached cause autoJoin
    = (s.abandon.withCtl (s.ctl.detachedFor cause autoJoin s.items.joinWait)).redrive := by
  simp only [State.toDetached, State.abandon_ctl, State.abandon_items, Ctl.detachedFor]

theorem toDetached_abandoned (cause : Removal) (autoJoin : Bool) (s : State) :
    Spec.abandoned s (s.toDetached cause autoJoin) := by
  rw [toDetached_eq]
  exact redrive_abandoned s ⟨rfl, rfl, rfl, rfl, rfl⟩

theorem toDetached_ctl (cause : Removal) (autoJoin : Bool) (s : State) :
    (s.toDetached cause autoJoin).ctl = s.ctl.detachedFor cause autoJoin s.items.joinWait := by
  rw [toDetached_eq, State.redrive_ctl, State.withCtl_ctl]

theorem toDetached_causes (cause : Removal) (autoJoin : Bool) (s : State) : (s.toDetached cause autoJoin).alerts.pending
    = s.alerts.pending ||| (if (s.toDetached cause autoJoin).outputs.driven = s.outputs.driven then 0 else 0x40) := by
  rw [toDetached_eq, redrive_abandoned_causes]

/-! ### The exits from ADRIFT (R119) -/

theorem exitAdrift_driftedOut (s : State) : Spec.driftedOut s s.exitAdrift := by
  refine ⟨toDetached_abandoned _ _ s, ?_⟩
  rw [State.exitAdrift, toDetached_ctl, toDetached_causes]
  exact ⟨rfl, rfl, rfl, rfl, rfl⟩

theorem timing_iff (st : Station) (s : State) :
    s.timing st = true ↔ s.operating = true ∧ s.ctl.station = st ∧ s.ctl.joinTimer ≠ none := by
  rw [State.timing, Bool.and_eq_true, Bool.and_eq_true, decide_eq_true_eq, Option.isSome_iff_ne_none, and_assoc]

theorem timing_of_ready {s : State} {st : Station} (h : s.ready) (hst : s.ctl.station = st) (ht : s.ctl.joinTimer ≠ none) :
    s.timing st = true := (timing_iff st s).2 ⟨h.1, hst, ht⟩

/-- Settles O48. -/
theorem adriftExits : Obligations.AdriftExits := by
  refine fun s hst => ⟨fun h ht => ⟨_, ?_, exitAdrift_driftedOut s⟩, fun hn => ⟨_, ?_, exitAdrift_driftedOut s⟩, fun hn => ?_⟩
  · show execAdriftWaitExpiry s = _
    simp only [execAdriftWaitExpiry, ready_settleDue h, timing_of_ready h hst ht, if_true]
  · exact congrArg Host.Outcome.next (if_pos ⟨hst, hn⟩)
  · exact congrArg Host.Outcome.next (if_neg fun h => Nat.not_le.2 hn h.2)

/-! ### Counts at their limits (R46, R58, R73, R92) -/

theorem outsideFrame_iff (e : Engine) :
    e.outsideFrame = true ↔ e.bus = .brokenWait ∨ e.bus = .idle ∨ e.phase = .gap := by
  simp [Engine.outsideFrame, or_assoc]

theorem headBack_eq (s : State) (q : Queue) : s.headBack q
    = (s.withQueue q).withLog (s.queue.headLink.elim s.log (fun n => s.log.setState n .queued)) := by
  unfold State.headBack
  cases s.queue.headLink <;> rfl

theorem fireRetry_of_exhausted {s : State} {x : Head} (hf : s.queue.inFlight = some x) (hx : 16 ≤ x.transmissions) :
    s.fireRetry = s.retryHead.toAdrift 0x00000015 := by
  have he : s.queue.exhausted = true := by rw [Queue.exhausted, hf]; exact decide_eq_true hx
  rw [State.fireRetry, if_pos he]

theorem fireRetry_of_below {s : State} (h : ∀ x, s.queue.inFlight = some x → x.transmissions < 16) : s.fireRetry = s := by
  have he : s.queue.exhausted = false := by
    unfold Queue.exhausted
    cases hf : s.queue.inFlight with
    | none => rfl
    | some x => exact decide_eq_false (Nat.not_le.2 (h x hf))
  rw [State.fireRetry, he, if_neg Bool.false_ne_true]

theorem fireRosterRetry_of_exhausted {s : State} {d : Duties} (hd : s.ctl.duties = some d) (hx : 16 ≤ d.retries) :
    s.fireRosterRetry = s.toAdrift 0x00000015 := by
  have he : s.ctl.exhausted = true := by rw [Ctl.exhausted, hd]; exact decide_eq_true hx
  rw [State.fireRosterRetry, if_pos he]

theorem fireRosterRetry_of_below {s : State} (h : ∀ d, s.ctl.duties = some d → d.retries < 16) : s.fireRosterRetry = s := by
  have he : s.ctl.exhausted = false := by
    unfold Ctl.exhausted
    cases hd : s.ctl.duties with
    | none => rfl
    | some d => exact decide_eq_false (Nat.not_le.2 (h d hd))
  rw [State.fireRosterRetry, he, if_neg Bool.false_ne_true]

/-- Settles O49. -/
theorem countsAtTheirLimits : Obligations.CountsAtTheirLimits := by
  refine ⟨fun s => ⟨fun hb => ?breaks, fun hb => ?below, fun h ho => ?stuck⟩, fun s => ⟨fun x hf hx => ?retry, fun h =>
    congrArg Host.Outcome.next (fireRetry_of_below h), fun d hd hx => congrArg Host.Outcome.next
    (fireRosterRetry_of_exhausted hd hx), fun h => congrArg Host.Outcome.next (fireRosterRetry_of_below h)⟩⟩
  case breaks => exact congrArg Host.Outcome.next (if_pos hb)
  case below => exact congrArg Host.Outcome.next (if_neg (Nat.not_le.2 hb))
  case stuck =>
    show execStuckLine s = _
    simp only [execStuckLine, ready_settleDue h, ready_operating h, (outsideFrame_iff _).2 ho, and_self, if_true]
    rfl
  case retry =>
    refine ⟨s.retryHead, congrArg Host.Outcome.next (fireRetry_of_exhausted hf hx), s.retryHead_queue, ?_, fun r hr hl => ?_,
      fun hno => ?_, ?_⟩
    · rw [State.retryHead_queue, Queue.retryHead, headBack_of_inFlight _ hf]
    · rw [State.retryHead, headBack_log, headLink_of_inFlight hf, link_of_fault hr hl, Option.elim_some]
    · rw [State.retryHead, headBack_log, headLink_of_inFlight hf, link_eq_none hno, Option.elim_none]
    · rw [State.retryHead, headBack_eq]
      rfl

/-! ### The join timers (R101, R103, R104, R106) -/

/-- Settles O43. -/
theorem automaticJoinAndJoinTimers : Obligations.AutomaticJoinAndJoinTimers := by
  refine ⟨fun s h hst hp ht => ?automatic, fun s h ht => ⟨fun hst htraffic => ?retry, fun hst => ?transfer⟩⟩
  case automatic =>
    show execAutomaticJoin s = _
    simp only [execAutomaticJoin, ready_settleDue h, timing_of_ready h hst ht, hp, and_self, if_true]
    rfl
  case retry =>
    show execJoinWaitExpiry s = _
    simp only [execJoinWaitExpiry, ready_settleDue h, timing_of_ready h hst ht, htraffic, if_true, bump_eq]
    rfl
  case transfer =>
    show execTransferTimerExpiry s = _
    simp only [execTransferTimerExpiry, ready_settleDue h, timing_of_ready h hst ht, if_true]

/-! ### Becoming MEMBER (R108, R113) -/

/-- The copy with its level derived (R26). -/
def Chassis.leveled (c : Chassis) : Chassis := { c with level := deriveLevel c.halt c.table }

/-- The station become MEMBER, before the UNSENT records are queued again. -/
def State.entered (s : State) : State :=
  ((s.withCtl { s.ctl with station := .member, joinTimer := none, transfer := none, cause := .none }).relevel.redrive.setCause
    .rosterChange).computeRoster

theorem toMember_eq (s : State) : s.toMember = s.entered.requeueUnsent := rfl

theorem role_eq (c : Chassis) (self : Addr) (d : Option Duties) :
    (if c.rosterStation = some self then some (d.getD Duties.fresh) else none) = Spec.role c self d := rfl

theorem entered_eq (s : State) : s.entered
    = (((s.withCtl { s.ctl with station := .member, joinTimer := none, transfer := none, cause := .none }).relevel.redrive).setCause
        .rosterChange).withCtl { s.ctl with
          station := .member
          joinTimer := none
          transfer := none
          cause := .none
          duties := Spec.role s.chassis.leveled s.straps.addr s.ctl.duties } := by
  rw [State.entered, State.computeRoster_eq, role_eq]
  · simp only [State.setCause_ctl, State.redrive_ctl, State.setCause_chassis, State.redrive_chassis, State.self,
      State.setCause_straps, State.redrive_straps]
    rfl
  · simp [State.copyValid, State.relevel, Station.valid]

theorem requeueUnsent_monitor (s : State) : s.requeueUnsent.monitor = s.monitor := by
  unfold State.requeueUnsent
  generalize s.log.records.filter (fun r => decide (r.state = .unsent)) = l
  induction l generalizing s with
  | nil => rfl
  | cons r rest ih => rw [List.foldl_cons, ih, takeFault_monitor]

/-- What a station holds that has become MEMBER; `t` may differ from `toMember` in copy and Roster Controller. -/
theorem entered_facts (s : State) : s.entered.chassis = s.chassis.leveled
    ∧ s.entered.outputs = ({ s.outputs with lastKnown := s.chassis.leveled.level } : Outputs).drive s.chassis.leveled.level
    ∧ s.entered.alerts.mask = s.alerts.mask
    ∧ s.entered.alerts.pending
      = s.alerts.pending ||| (if s.chassis.leveled.level = s.outputs.driven then 0 else 0x40) ||| 0x08
    ∧ s.entered.queue = s.queue ∧ s.entered.log = s.log ∧ s.entered.engine = s.engine ∧ s.entered.monitor = s.monitor
    ∧ s.entered.items = s.items ∧ s.entered.port = s.port ∧ s.entered.power = s.power ∧ s.entered.straps = s.straps
    ∧ s.entered.freeCount = s.freeCount ∧ s.entered.pending = s.pending := by
  have hlevel : ((s.withCtl { s.ctl with station := .member, joinTimer := none, transfer := none, cause := .none }).relevel
      ).levelToDrive = s.chassis.leveled.level := State.levelToDrive_valid _ rfl
  rw [entered_eq]
  simp only [State.withCtl_chassis, State.withCtl_outputs, State.withCtl_alerts, State.withCtl_queue, State.withCtl_log,
    State.withCtl_engine, State.withCtl_monitor, State.withCtl_items, State.withCtl_port, State.withCtl_power,
    State.withCtl_straps, State.withCtl_freeCount, State.withCtl_pending, State.setCause_chassis, State.setCause_outputs,
    State.setCause_mask, State.setCause_causes, State.setCause_queue, State.setCause_log, State.setCause_engine,
    State.setCause_monitor, State.setCause_items, State.setCause_port, State.setCause_power, State.setCause_straps,
    State.setCause_freeCount, State.setCause_pending, State.redrive_chassis, State.redrive_outputs, State.redrive_mask,
    State.redrive_causes, State.redrive_queue, State.redrive_log, State.redrive_engine, State.redrive_monitor,
    State.redrive_items, State.redrive_port, State.redrive_power, State.redrive_straps, State.redrive_freeCount,
    State.redrive_pending, hlevel]
  exact ⟨rfl, rfl, rfl, rfl, rfl, rfl, rfl, rfl, rfl, rfl, rfl, rfl, rfl, rfl⟩

/-- What a station holds that has become MEMBER, but for what the re-queued records change. `m` is the state at which it does:
with the new copy, and as `s` in the blocks that are told of. -/
theorem toMember_becameMember {s m : State} {causes : Byte} (hm : m = { s with
      engine := m.engine, chassis := m.chassis, ctl := m.ctl, alerts := m.alerts })
    (hmask : m.alerts.mask = s.alerts.mask) (hcauses : m.alerts.pending = s.alerts.pending ||| causes) :
    Spec.becameMember s m.toMember m.entered m.chassis.leveled causes := by
  obtain ⟨hchassis, houtputs, hmask', hcauses', hqueue, hlog, -, hmonitor, hitems, hport, hpower, hstraps, hfree, hpending⟩ :=
    entered_facts m
  have l := requeueUnsent_local m.entered
  rw [toMember_eq]
  refine ⟨l.chassis.trans hchassis, ?_, ?_, ?_, hmask'.trans hmask, ?_, ?_, ?_, rfl, rfl, rfl, ?_, ?_, ?_, ?_, ?_, ?_, ?_⟩
  · rw [l.outputs, houtputs]
    rfl
  · rw [l.outputs, houtputs]
    rfl
  · rw [l.outputs, houtputs, hm]
    rfl
  · rw [hcauses', hcauses, show m.outputs = s.outputs by rw [hm]]
  · rw [hqueue, hm]
  · rw [hlog, hm]
  · rw [requeueUnsent_monitor, hmonitor, hm]
  · rw [l.items, hitems, hm]
  · rw [l.port, hport, hm]
  · rw [l.power, hpower, hm]
  · rw [l.straps, hstraps, hm]
  · rw [l.freeCount, hfree, hm]
  · rw [l.pending, hpending, hm]

/-! ### Founding (R108) -/

/-- The state at which a founding station becomes MEMBER. -/
def State.founding (s : State) : State :=
  let t := s.withChassis (Chassis.founded s.self s.items.foundingDropLimit s.items.foundingLoss)
  t.withEngine { t.engine with foreign := 0 }

theorem founded_record (self : Addr) (dropLimit : BitVec 4) (loss : Option Severity) (a : Addr) :
    (Chassis.founded self dropLimit loss).record a = if a = self then some ⟨.full, 0⟩ else none := by
  have hrecords : (Chassis.founded self dropLimit loss).records
      = recordsOf (fun b => if b = self then some ⟨.full, 0⟩ else none) := by simp only [Chassis.founded]
  exact record_of_records hrecords a

/-- A founder is the roster station of its chassis, whose drop limit is not 0. -/
theorem founded_rosterStation (self : Addr) {dropLimit : BitVec 4} (loss : Option Severity) (h : 2 ≤ dropLimit) :
    (Chassis.founded self dropLimit loss).leveled.rosterStation = some self := by
  refine (rosterStationIsTheLowestFullMember.1 _ _).2 ⟨⟨⟨.full, 0⟩, ?_, rfl, ?_⟩, fun b m hb hm => ?_⟩
  · exact (founded_record _ _ _ _).trans (if_pos rfl)
  · show (0 : BitVec 4) < dropLimit
    bv_omega
  · have hr := (founded_record self dropLimit loss b).symm.trans hm
    rw [if_neg (by rintro rfl; exact absurd hb (by simp))] at hr
    cases hr

/-- Settles O42. -/
theorem founding : Obligations.Founding := by
  intro s h hst ht hsilent hl
  have hd := duties_of_legal hl (copyValid_false_of (by simp [hst]) (by simp [hst]))
  obtain ⟨-, -, hlow, -⟩ := hl
  have hexec : exec .joinWaitExpiry s = .next s.found := by
    show execJoinWaitExpiry s = _
    simp only [execJoinWaitExpiry, ready_settleDue h, timing_of_ready h hst ht, hsilent, if_true, Bool.false_eq_true, if_false]
  have hmember := toMember_becameMember (s := s) (m := s.founding) (causes := 0) rfl rfl BitVec.or_zero.symm
  have hctl : s.founding.toMember.ctl = { s.ctl with
      station := .member, joinTimer := none, transfer := none, cause := .none, duties := some Duties.fresh } := by
    rw [toMember_eq, (requeueUnsent_local _).ctl, entered_eq, State.withCtl_ctl]
    show ({ s.ctl with
      station := .member, joinTimer := none, transfer := none, cause := .none,
      duties := Spec.role (Chassis.founded s.self s.items.foundingDropLimit s.items.foundingLoss).leveled s.self s.ctl.duties } : Ctl) = _
    rw [Spec.role, if_pos (founded_rosterStation _ _ hlow), hd]
    rfl
  refine ⟨s.found, s.founding.entered, s.founding.chassis.leveled, hexec, hmember, rfl, founded_record _ _ _, rfl, rfl, rfl,
    rfl, rfl, rfl, rfl, rfl, rfl, ?_, ?_⟩
  · show ({ s.founding.toMember.ctl with
      duties := s.founding.toMember.ctl.duties.map (fun d => { d with list := s.ctl.heardList }) } : Ctl) = _
    rw [hctl]
    rfl
  · show s.founding.toMember.engine = _
    rw [toMember_eq, (requeueUnsent_local _).engine]
    obtain ⟨-, -, -, -, -, -, hengine, -⟩ := entered_facts s.founding
    exact hengine

end Sys2Proof.Machine
end

section
/-! PROOFS. The end of a frame: broken or complete, what judges it, and loss of step (R45, R50 to R54). -/

namespace Sys2Proof.Machine

/-! ### Broken or complete (R50) -/

theorem tailAgrees_iff (t : Tail) : tailAgrees t = true ↔ t.check = echoCheck t.echo ∧ t.echo = t.ack := by
  simp [tailAgrees, tailGood]

theorem frameBroken_iff (s : State) (tail : Tail) : s.engine.frameBroken tail = true ↔ Spec.broken s tail := by
  simp only [Engine.frameBroken, Engine.echoDisturbed, tailSilent, Bool.or_eq_true, Bool.and_eq_true, Bool.not_eq_true',
    ← Bool.not_eq_true, tailAgrees_iff, decide_eq_true_eq, Option.isSome_iff_ne_none, Spec.broken]
  tauto

theorem inFrame_iff (e : Engine) : e.inFrame = true ↔ e.phase = .body ∨ e.phase = .tail := by simp [Engine.inFrame]

theorem exec_frameEnd_broken {s : State} {tail : Tail} (h : Spec.ending s) (hb : Spec.broken s tail) :
    exec (.frameEnd tail) s = .next (s.reportBroken.withEngine (Spec.brokenOff s.engine)) := by
  obtain ⟨hready, hphase⟩ := h
  show execFrameEnd tail s = _
  simp only [execFrameEnd, ready_settleDue hready, ready_operating hready, (inFrame_iff _).2 hphase, and_self, if_true,
    (frameBroken_iff s tail).2 hb]
  rfl

theorem exec_frameEnd_complete {s : State} {tail : Tail} (h : Spec.ending s) (hb : ¬Spec.broken s tail) :
    exec (.frameEnd tail) s = .next ((s.complete tail).withEngine (Spec.ended (s.complete tail).engine)) := by
  obtain ⟨hready, hphase⟩ := h
  show execFrameEnd tail s = _
  simp only [execFrameEnd, ready_settleDue hready, ready_operating hready, (inFrame_iff _).2 hphase, and_self, if_true,
    mt (frameBroken_iff s tail).1 hb]
  rfl

/-- Outside a frame, or while the station does not run, FRAME_END only ends a break still driven (R59). -/
theorem exec_frameEnd_outside {s : State} (tail : Tail) (h : s.nothingDue)
    (ho : s.operating = false ∨ s.engine.phase = .none ∨ s.engine.phase = .gap) : exec (.frameEnd tail) s
      = .next (if s.engine.breaking then s.withEngine { s.engine with breaking := false } else s) := by
  have hno : ¬(s.operating = true ∧ s.engine.inFrame = true) := by
    rintro ⟨hop, hin⟩
    rw [inFrame_iff] at hin
    rcases ho with ho | ho | ho
    · exact Bool.false_ne_true (ho.symm.trans hop)
    all_goals
      rw [ho] at hin
      exact hin.elim nofun nofun
  show execFrameEnd tail s = _
  simp only [execFrameEnd, settleDue_of_nothingDue h, hno, if_false]
  split <;> rfl

theorem echoCheck_zero : echoCheck 0 = 0x24 := by decide +kernel

theorem agreed_complete {s : State} {tail : Tail} (h : Spec.agreed s tail) : Spec.ending s ∧ ¬Spec.broken s tail := by
  obtain ⟨hending, hbreaking, hend, hcheck, hack⟩ := h
  refine ⟨hending, ?_⟩
  rintro (hdom | hbreak | ⟨hecho, hff⟩ | ⟨-, hno⟩)
  · exact Bool.false_ne_true (hend.symm.trans hdom)
  · exact Bool.false_ne_true (hbreaking.symm.trans hbreak)
  · rw [hecho, echoCheck_zero, hff] at hcheck
    exact absurd hcheck (by decide)
  · exact hno ⟨hcheck, hack⟩

theorem agreed_tail {s : State} {tail : Tail} (h : Spec.agreed s tail) : tailAgrees tail = true :=
  (tailAgrees_iff tail).2 h.2.2.2

/-! ### Broken frames (R72, R92) -/

theorem reportBroken_of_none {s : State} (h : s.engine.sent = none) : s.reportBroken = s := by
  rw [State.reportBroken, h]

theorem reportBroken_of_join {s : State} {x : Sent} (h : s.engine.sent = some x) (hp : x.path = .join) :
    s.reportBroken = s := by
  rw [State.reportBroken, h]
  dsimp only
  rw [hp]

theorem modifyHead_of_inFlight {q : Queue} {h : Head} (f : Head → Head) (hf : q.inFlight = some h) :
    q.modifyHead f = { q with inFlight := some (f h) } := by
  rw [Queue.modifyHead, hf, Option.map_some]

theorem transmitted_eq {h : Head} (ha : h.agingDue = false) : h.transmitted = Spec.spent h := by
  rw [Head.transmitted, ← ha]
  rfl

theorem reportBroken_of_queue {s : State} {x : Sent} {h : Head} (hs : s.engine.sent = some x) (hp : x.path = .queue)
    (hf : s.queue.inFlight = some h) (ha : h.agingDue = false) :
    s.reportBroken = s.withQueue { s.queue with inFlight := some (Spec.spent h) } := by
  rw [State.reportBroken, hs]
  dsimp only
  rw [hp, modifyHead_of_inFlight _ hf, transmitted_eq ha]

theorem failed_none (d : Duties) : d.failed none = { d with retries := d.retries + 1 } := rfl

theorem reportBroken_of_roster {s : State} {x : Sent} {d : Duties} (hs : s.engine.sent = some x) (hp : x.path = .roster)
    (hd : s.ctl.duties = some d) :
    s.reportBroken = s.withCtl { s.ctl with duties := some { d with retries := d.retries + 1 } } := by
  rw [State.reportBroken, hs]
  dsimp only
  rw [hp, hd, Option.map_some, failed_none]

theorem sending_of {e : Engine} (hb : e.breaking = false) (hbus : e.bus = .arbitrating ∨ e.bus = .transmitting)
    (hphase : e.phase = .body ∨ e.phase = .tail) : e.sending = true := by
  simp [Engine.sending, hb, hbus, hphase]

/-- The Frame Engine after a body: only the foreign-reported set depends on the body. -/
theorem exec_bodyReceived_engine {s : State} (bits : BodyBits) (h : Spec.reading s) :
    ∃ t, exec (.bodyReceived bits) s = .next t
      ∧ t.engine = { Spec.received s.engine bits with foreign := t.engine.foreign } := by
  cases hf : readFrame bits with
  | none => exact ⟨_, exec_bodyReceived_bad h hf, rfl⟩
  | some f => exact ⟨_, exec_bodyReceived_good h hf, State.passOn_engine _ f⟩

theorem received_of_breaking {e : Engine} {bits : BodyBits} (h : Spec.breaks e bits = true) :
    Spec.received e bits = { e with phase := .tail, breaking := true, rx := some bits } := by
  simp [Spec.received, h]

/-- Settles O29. -/
theorem brokenFramesAndTransmissionFaults : Obligations.BrokenFramesAndTransmissionFaults := by
  refine ⟨fun s h hb => ⟨fun hbus hphase => ?fault, fun x bits hphase hs hother => ?readsOther⟩,
    fun s tail h hb => ⟨fun hs => ?another, fun x hs => ⟨fun hp => ?join, fun hp y hf => ?queue, fun hp d hd => ?roster⟩⟩,
    fun s bits h hb hphase => ?breaking, fun s tail h ho => ⟨fun hb => ?ends, fun hb => ?nothing⟩⟩
  case fault =>
    show execTransmissionFault s = _
    simp only [execTransmissionFault, ready_settleDue h, ready_operating h, sending_of hb hbus hphase, and_self, if_true]
  case readsOther =>
    obtain ⟨t, hexec, hengine⟩ := exec_bodyReceived_engine bits ⟨h, hphase⟩
    refine ⟨t, hexec, ?_⟩
    rwa [received_of_breaking (by simp [Spec.breaks, hs, hother])] at hengine
  case breaking =>
    obtain ⟨t, hexec, hengine⟩ := exec_bodyReceived_engine bits ⟨h, hphase⟩
    refine ⟨t, hexec, ?_⟩
    rwa [received_of_breaking (by simp [Spec.breaks, hb]), ← hb] at hengine
  case another => rw [exec_frameEnd_broken h hb, reportBroken_of_none hs]
  case join => rw [exec_frameEnd_broken h hb, reportBroken_of_join hs hp]
  case queue =>
    obtain ⟨haging, -⟩ := h.1.2.1 y hf
    rw [exec_frameEnd_broken h hb, reportBroken_of_queue hs hp hf haging]
    rfl
  case roster =>
    rw [exec_frameEnd_broken h hb, reportBroken_of_roster hs hp hd]
    rfl
  case ends => rw [exec_frameEnd_outside tail h ho, if_pos hb]
  case nothing => rw [exec_frameEnd_outside tail h ho, hb, if_neg Bool.false_ne_true]

/-! ### What settles (R51, R54) -/

theorem judges_iff {s : State} (f : Frame) (h : s.ctl.station.inStep = true) :
    s.judges f = true ↔ f.body ≠ .join ∧ s.chassis.record f.sender ≠ none := by
  have hj : s.judges f = (!f.isJoin && !s.foreign f) := by
    rcases (inStep_iff _).1 h with hst | hst | hst <;> rw [State.judges, hst]
  rw [hj, Bool.and_eq_true, Bool.not_eq_true', Bool.not_eq_true', isJoin_false_iff]
  refine and_congr_right fun hbody => ?_
  rw [← Bool.not_eq_true, foreign_iff]
  exact ⟨fun hno hnone => hno ⟨h, hbody, hnone⟩, fun hsome hf => hsome hf.2.2⟩

theorem settles_iff {s : State} {tail : Tail} (f : Frame) (h : s.ctl.station.inStep = true)
    (ht : tailAgrees tail = true) : s.settles tail f = true ↔
      (f.body ≠ .join ∧ s.chassis.record f.sender ≠ none) ∧ setWithin (s.expecting f) tail.echo = true := by
  rw [State.settles, ht, Bool.true_and, Bool.and_eq_true, judges_iff f h]

theorem expecting_of_roster {s : State} {f : Frame} {r : RosterBody} (h : f.body = .roster r) : s.expecting f = r.members := by
  rw [State.expecting, h]

theorem expecting_of_other {s : State} {f : Frame} (h : ∀ r, f.body ≠ .roster r) : s.expecting f = s.chassis.map := by
  unfold State.expecting
  cases hb : f.body with
  | roster r => exact absurd hb (h r)
  | _ => rfl

theorem wrongGeneration_iff {s : State} {f : Frame} {r : RosterBody} (h : f.body = .roster r) :
    s.wrongGeneration f = true ↔ setHas r.members s.straps.addr = true ∧ r.generation ≠ s.chassis.generation + 1 := by
  rw [State.wrongGeneration, h, Bool.and_eq_true, decide_eq_true_eq]
  rfl

theorem wrongGeneration_of_other {s : State} {f : Frame} (h : ∀ r, f.body ≠ .roster r) : s.wrongGeneration f = false := by
  unfold State.wrongGeneration
  cases hb : f.body with
  | roster r => exact absurd hb (h r)
  | _ => rfl

/-! ### Loss of step (R52, R53) -/

theorem lossCause_outside {s : State} (tail : Tail) (h : s.ctl.station.inStep = false) : s.lossCause tail = none := by
  rw [State.lossCause, h, if_neg Bool.false_ne_true]

theorem lossCause_badCheck {s : State} {tail : Tail} (h : s.ctl.station.inStep = true)
    (hc : tail.check ≠ echoCheck tail.echo) : s.lossCause tail = some 0x00000011 := by
  have hbad : tailGood tail = false := decide_eq_false hc
  rw [State.lossCause, if_pos h, if_pos hbad]

theorem lossCause_otherEcho {s : State} {tail : Tail} (h : s.ctl.station.inStep = true)
    (hc : tail.check = echoCheck tail.echo) (he : tail.echo ≠ tail.ack) : s.lossCause tail = some 0x00000012 := by
  have hgood : tailGood tail ≠ false := by simp [tailGood, hc]
  rw [State.lossCause, if_pos h, if_neg hgood, if_pos he]

theorem lossCause_heard {s : State} {tail : Tail} {f : Frame} (h : s.ctl.station.inStep = true)
    (ht : tailAgrees tail = true) (hf : Spec.heard s f) : s.lossCause tail
      = if f.sender = s.self ∧ s.notSent then some 0x00000013
        else if s.settles tail f ∧ s.wrongGeneration f then some 0x00000014 else none := by
  obtain ⟨hc, he⟩ := (tailAgrees_iff tail).1 ht
  have hgood : tailGood tail ≠ false := by simp [tailGood, hc]
  rw [State.lossCause, if_pos h, if_neg hgood, if_neg (not_not.2 he), (goodBody_iff s f).2 hf]

theorem goodBody_none_iff (s : State) : s.goodBody = none ↔ ∀ f, ¬Spec.heard s f := by
  simp only [← goodBody_iff, Option.eq_none_iff_forall_ne_some]

theorem lossCause_bad {s : State} {tail : Tail} (h : s.ctl.station.inStep = true) (ht : tailAgrees tail = true)
    (hf : ∀ f, ¬Spec.heard s f) : s.lossCause tail
      = if s.removable ∧ tail.echo &&& s.chassis.map ≠ 0 then some 0x00000011 else none := by
  obtain ⟨hc, he⟩ := (tailAgrees_iff tail).1 ht
  have hgood : tailGood tail ≠ false := by simp [tailGood, hc]
  rw [State.lossCause, if_pos h, if_neg hgood, if_neg (not_not.2 he), (goodBody_none_iff s).2 hf]

theorem removable_iff (s : State) : s.removable = true ↔
    ∃ m, s.chassis.record s.straps.addr = some m ∧ (m.state = .departing ∨ s.chassis.dropLimit ≤ m.miss) := by
  unfold State.removable State.self
  cases s.chassis.record s.straps.addr <;> simp [Chassis.suspect]

theorem complete_of_loss {s : State} {tail : Tail} {code : Word} (h : s.lossCause tail = some code) :
    s.complete tail = s.toAdrift code := by
  rw [State.complete, h]

theorem toAdrift_engine (code : Word) (s : State) : (s.toAdrift code).engine = { s.engine with foreign := 0 } := by
  rw [toAdrift_eq, (assertSource_local _ _ _).engine, driftOff_engine]

theorem exec_frameEnd_loss {s : State} {tail : Tail} {code : Word} (h : Spec.ending s) (hb : ¬Spec.broken s tail)
    (hc : s.lossCause tail = some code) : exec (.frameEnd tail) s
      = .next ((s.toAdrift code).withEngine (Spec.ended { s.engine with foreign := 0 })) := by
  rw [exec_frameEnd_complete h hb, complete_of_loss hc, toAdrift_engine]

/-- Settles O30, cause by cause in the order of Table 3-7. -/
theorem lossOfStepCauses : Obligations.LossOfStepCauses := by
  intro s tail h hb hs hstep lost hlost
  have hexec {code : Word} (hc : s.lossCause tail = some code) : exec (.frameEnd tail) s = .next (lost code) := by
    rw [exec_frameEnd_loss h hb hc, hlost]
  refine ⟨fun hc => hexec (lossCause_badCheck hstep hc), fun hc he => hexec (lossCause_otherEcho hstep hc he), fun hc he => ?_⟩
  have ht : tailAgrees tail = true := (tailAgrees_iff tail).2 ⟨hc, he⟩
  refine ⟨fun f hf hself hlost => hexec ?duplicate, fun f r hf hr hother hsender hecho hself hgen => hexec ?generation,
    fun m hno hm hout hheard => hexec ?removable⟩
  case duplicate =>
    rw [lossCause_heard hstep ht hf, if_pos ⟨hself, (notSent_iff s).2 ⟨hs, hlost⟩⟩]
  case generation =>
    have hsettles : s.settles tail f = true := (settles_iff f hstep ht).2
      ⟨⟨by rw [hr]; nofun, hsender⟩, by rw [expecting_of_roster hr]; exact hecho⟩
    rw [lossCause_heard hstep ht hf, if_neg fun hdup => hother hdup.1,
      if_pos ⟨hsettles, (wrongGeneration_iff hr).2 ⟨hself, hgen⟩⟩]
  case removable => rw [lossCause_bad hstep ht hno, if_pos ⟨(removable_iff s).2 ⟨m, hm, hout⟩, hheard⟩]

end Sys2Proof.Machine
end

section
/-! PROOFS. The verdict on a complete frame, the count of its echo, and the roster station after it; frames that do not settle
(R51, R55, R72, R84, R92, R93, R117). -/

namespace Sys2Proof.Machine

/-! ### The verdict, and the count of the echo (R51, R55) -/

/-- The station after the verdict on a complete frame and the count of its echo. -/
def State.echoed (tail : Tail) (s : State) : State :=
  (s.verdict tail).countMisses (s.ctl.station.inStep && s.counts tail) tail.echo

theorem complete_of_noLoss {s : State} {tail : Tail} (h : s.lossCause tail = none) :
    s.complete tail = (s.echoed tail).afterEcho.countAdrift (decide (s.ctl.station = .adrift)) := by
  rw [State.complete, h]
  rfl

theorem countAdrift_of_other {s t : State} (h : s.ctl.station ≠ .adrift) :
    t.countAdrift (decide (s.ctl.station = .adrift)) = t := by
  rw [decide_eq_false h]
  rfl

theorem verdict_of_settled {s : State} {tail : Tail} {f : Frame} (hf : Spec.heard s f) (h : s.settles tail f = true) :
    s.verdict tail = s.settleFrame f := by
  rw [State.verdict, (goodBody_iff s f).2 hf]
  exact if_pos h

theorem verdict_of_unsettled {s : State} {tail : Tail} {f : Frame} (hf : Spec.heard s f) (h : s.settles tail f = false) :
    s.verdict tail = s.reportUnsettled tail := by
  rw [State.verdict, (goodBody_iff s f).2 hf]
  exact if_neg (by rw [h]; exact Bool.false_ne_true)

theorem verdict_of_bad {s : State} (tail : Tail) (hf : ∀ f, ¬Spec.heard s f) :
    s.verdict tail = s.reportUnsettled tail := by
  rw [State.verdict, (goodBody_none_iff s).2 hf]

theorem counts_of_bad {s : State} (tail : Tail) (hf : ∀ f, ¬Spec.heard s f) : s.counts tail = true := by
  rw [State.counts, (goodBody_none_iff s).2 hf]

theorem counts_of_unsettled {s : State} {tail : Tail} {f : Frame} (hf : Spec.heard s f) (hforeign : s.foreign f = false)
    (h : s.settles tail f = false) : s.counts tail = true := by
  rw [State.counts, (goodBody_iff s f).2 hf]
  dsimp only
  rw [hforeign]
  cases f.body with
  | roster r => rw [h]; rfl
  | _ => rfl

theorem counts_of_other {s : State} (tail : Tail) {f : Frame} (hf : Spec.heard s f) (hforeign : s.foreign f = false)
    (h : ∀ r, f.body ≠ .roster r) : s.counts tail = true := by
  rw [State.counts, (goodBody_iff s f).2 hf]
  dsimp only
  rw [hforeign]
  cases hb : f.body with
  | roster r => exact absurd hb (h r)
  | _ => rfl

theorem counts_of_settledRoster {s : State} {tail : Tail} {f : Frame} {r : RosterBody} (hf : Spec.heard s f)
    (hr : f.body = .roster r) (h : s.settles tail f = true) : s.counts tail = false := by
  rw [State.counts, (goodBody_iff s f).2 hf]
  dsimp only
  rw [hr, h]
  exact Bool.and_false _

theorem counts_of_foreign {s : State} (tail : Tail) {f : Frame} (hf : Spec.heard s f) (h : s.foreign f = true) :
    s.counts tail = false := by
  rw [State.counts, (goodBody_iff s f).2 hf]
  dsimp only
  rw [h]
  rfl

/-! ### Miss counts (R55) -/

theorem satInc_miss (m : BitVec 4) : satInc m = if m = 15 then 15 else m + 1 := by
  apply BitVec.eq_of_toNat_eq
  rw [satInc_toNat]
  split
  · next h =>
    subst h
    rfl
  · bv_omega

theorem countMisses_counted (c : Chassis) (echo : StationSet) : c.countMisses echo = Spec.counted c echo := by
  simp only [Chassis.countMisses, Spec.counted, satInc_miss]

/-- R55: where every member is acknowledged, no member is missed. -/
theorem countMisses_heardAll {c : Chassis} {echo : StationSet} {a : Addr} (hall : setWithin c.map echo = true)
    (hsome : c.record a ≠ none) : c.countMisses echo = Spec.heardAll c := by
  have hmem {b : Addr} {m : Member} (hm : c.record b = some m) : setHas echo b = true :=
    (setWithin_iff _ _).1 hall b ((setHas_map_iff c b).2 ⟨m, hm⟩)
  obtain ⟨m, hm⟩ := Option.ne_none_iff_exists'.1 hsome
  have hne : echo &&& c.map ≠ 0 := fun hzero => by
    have := set_eq_zero_iff.1 hzero a
    rw [setHas_and, hmem hm, (setHas_map_iff c a).2 ⟨m, hm⟩] at this
    cases this
  have hrecords : (fun b => (c.record b).map (fun m => { m with miss := if setHas echo b then 0 else satInc m.miss }))
      = fun b => (c.record b).map (fun m => { m with miss := 0 }) := by
    funext b
    cases hb : c.record b with
    | none => rfl
    | some m => simp [hmem hb]
  rw [Chassis.countMisses, if_neg hne, hrecords]
  rfl

theorem echoed_of_counted {s t : State} {tail : Tail} (hv : s.verdict tail = t) (hs : s.ctl.station.inStep = true)
    (hc : s.counts tail = true) (ht : t.ctl.station.inStep = true) :
    s.echoed tail = t.withChassis (t.chassis.countMisses tail.echo) := by
  rw [State.echoed, hv, hs, hc, State.countMisses_eq, ht]
  rfl

theorem echoed_of_uncounted {s t : State} {tail : Tail} (hv : s.verdict tail = t)
    (h : s.ctl.station.inStep = false ∨ s.counts tail = false ∨ t.ctl.station.inStep = false) : s.echoed tail = t := by
  have hno : (s.ctl.station.inStep && s.counts tail && t.ctl.station.inStep) = false := by
    rcases h with h | h | h <;> simp [h]
  rw [State.echoed, hv, State.countMisses_eq, hno]
  rfl

/-! ### After the echo (R84, R117) -/

theorem afterEcho_invalid {s : State} (h : s.copyValid = false) : s.afterEcho = s := by
  rw [State.afterEcho, h, if_neg Bool.false_ne_true]

/-- R84, R85: the station with the role that its copy gives it. -/
def State.roled (s : State) : State :=
  s.withCtl { s.ctl with duties := Spec.role s.chassis s.straps.addr s.ctl.duties }

theorem afterEcho_stays {s : State}
    (h : s.ctl.station = .member ∨ (s.ctl.station = .leaving ∧ s.chassis.rosterStation ≠ none)) :
    s.afterEcho = s.roled := by
  have hv : s.copyValid = true := (copyValid_iff s).2 (h.imp_right fun hl => hl.1)
  have hno : ¬(s.ctl.station = .leaving ∧ s.chassis.rosterStation = none) := by
    rintro ⟨hst, hnone⟩
    rcases h with hm | ⟨-, hsome⟩
    · rw [hm] at hst
      cases hst
    · exact hsome hnone
  rw [State.afterEcho, if_pos hv, if_neg hno, State.computeRoster_eq s hv]
  rfl

theorem afterEcho_leaves {s : State} (hst : s.ctl.station = .leaving) (hnone : s.chassis.rosterStation = none) :
    s.afterEcho = s.toDetached .departed false := by
  rw [State.afterEcho, if_pos ((copyValid_iff s).2 (Or.inr hst)), if_pos ⟨hst, hnone⟩]

/-- A complete frame that left the station as `mid`: it stays, with the role its copy gives it. -/
theorem exec_frameEnd_stays {s mid : State} {tail : Tail} (h : Spec.ending s ∧ ¬Spec.broken s tail)
    (hc : s.lossCause tail = none) (hst : s.ctl.station ≠ .adrift) (he : s.echoed tail = mid)
    (hm : mid.ctl.station = .member ∨ (mid.ctl.station = .leaving ∧ mid.chassis.rosterStation ≠ none)) :
    exec (.frameEnd tail) s = .next (mid.roled.withEngine (Spec.ended mid.engine)) := by
  rw [exec_frameEnd_complete h.1 h.2, complete_of_noLoss hc, countAdrift_of_other hst, he, afterEcho_stays hm]
  rfl

/-- A complete frame that left the station as `mid`, without a valid copy. -/
theorem exec_frameEnd_invalid {s mid : State} {tail : Tail} (h : Spec.ending s ∧ ¬Spec.broken s tail)
    (hc : s.lossCause tail = none) (hst : s.ctl.station ≠ .adrift) (he : s.echoed tail = mid)
    (hm : mid.copyValid = false) :
    exec (.frameEnd tail) s = .next (mid.withEngine (Spec.ended mid.engine)) := by
  rw [exec_frameEnd_complete h.1 h.2, complete_of_noLoss hc, countAdrift_of_other hst, he, afterEcho_invalid hm]

/-- R117: a complete frame that left the station LEAVING as `mid`, with no roster station. -/
theorem noneLeft_of_echoed {s mid : State} {tail : Tail} (h : Spec.ending s ∧ ¬Spec.broken s tail)
    (hc : s.lossCause tail = none) (hst : s.ctl.station ≠ .adrift) (he : s.echoed tail = mid)
    (hl : mid.ctl.station = .leaving) (hnone : mid.chassis.rosterStation = none) : Spec.noneLeft s mid tail := by
  refine ⟨_, ?_, mid.toDetached .departed false, toDetached_abandoned _ _ mid, rfl, toDetached_ctl _ _ mid, ?_⟩
  · rw [exec_frameEnd_complete h.1 h.2, complete_of_noLoss hc, countAdrift_of_other hst, he, afterEcho_leaves hl hnone]
  · rw [toDetached_causes]
    exact BitVec.or_zero.symm

/-! ### Frames of other stations that do not settle -/

theorem reportUnsettled_of_none {s : State} (tail : Tail) (h : s.engine.sent = none) : s.reportUnsettled tail = s := by
  rw [State.reportUnsettled, h]

theorem not_duplicate {s : State} {f : Frame} (h : f.sender ≠ s.straps.addr ∨ s.engine.sent ≠ none) :
    ¬(f.sender = s.self ∧ s.notSent = true) := by
  rintro ⟨hself, hn⟩
  exact h.elim (fun ho => ho hself) fun hs => hs ((notSent_iff s).1 hn).1

/-- R52: a good body loses no step where it does not settle. -/
theorem lossCause_of_unsettled {s : State} {tail : Tail} {f : Frame} (hs : s.ctl.station.inStep = true)
    (ht : tailAgrees tail = true) (hf : Spec.heard s f) (hsender : f.sender ≠ s.straps.addr ∨ s.engine.sent ≠ none)
    (hno : s.settles tail f = false) : s.lossCause tail = none := by
  rw [lossCause_heard hs ht hf, if_neg (not_duplicate hsender), hno, if_neg fun h => Bool.false_ne_true h.1]

theorem unsettled_settles {s : State} {tail : Tail} {f : Frame} (hs : s.ctl.station.inStep = true)
    (ht : tailAgrees tail = true) (h : Spec.unsettled s tail f) : s.settles tail f = false ∧ s.foreign f = false := by
  obtain ⟨hf, -, -, hjoin | ⟨hsender, hother, hroster⟩⟩ := h
  · refine ⟨?_, foreign_false_of_join hjoin⟩
    rw [← Bool.not_eq_true, settles_iff f hs ht]
    exact fun h => h.1.1 hjoin
  · refine ⟨?_, foreign_false_of_member hsender⟩
    rw [← Bool.not_eq_true, settles_iff f hs ht]
    rintro ⟨-, hecho⟩
    by_cases hr : ∃ r, f.body = .roster r
    · obtain ⟨r, hr⟩ := hr
      rw [expecting_of_roster hr, hroster r hr] at hecho
      cases hecho
    · have hno : ∀ r, f.body ≠ .roster r := fun r h => hr ⟨r, h⟩
      rw [expecting_of_other hno, hother hno] at hecho
      cases hecho

theorem unsettled_echoed {s : State} {tail : Tail} {f : Frame} (hs : s.ctl.station.inStep = true)
    (ht : tailAgrees tail = true) (h : Spec.unsettled s tail f) :
    s.lossCause tail = none ∧ s.echoed tail = s.withChassis (Spec.counted s.chassis tail.echo) := by
  obtain ⟨hno, hforeign⟩ := unsettled_settles hs ht h
  obtain ⟨hf, hsent, hother, -⟩ := h
  refine ⟨lossCause_of_unsettled hs ht hf (Or.inl hother) hno, ?_⟩
  have hv : s.verdict tail = s := by rw [verdict_of_unsettled hf hno, reportUnsettled_of_none tail hsent]
  rw [echoed_of_counted hv hs (counts_of_unsettled hf hforeign hno) hs, countMisses_counted]

theorem badBody_echoed {s : State} {tail : Tail} (hs : s.ctl.station.inStep = true) (ht : tailAgrees tail = true)
    (h : Spec.badBody s tail) :
    s.lossCause tail = none ∧ s.echoed tail = s.withChassis (Spec.counted s.chassis tail.echo) := by
  obtain ⟨hf, hsent, hsafe⟩ := h
  constructor
  · rw [lossCause_bad hs ht hf, if_neg]
    rintro ⟨hrem, hne⟩
    rcases hsafe with hsafe | hsafe
    · obtain ⟨m, hm, hout⟩ := (removable_iff s).1 hrem
      obtain ⟨hstate, hmiss⟩ := hsafe m hm
      exact hout.elim hstate fun hle => BitVec.not_le.2 hmiss hle
    · exact hne hsafe
  · have hv : s.verdict tail = s := by rw [verdict_of_bad tail hf, reportUnsettled_of_none tail hsent]
    rw [echoed_of_counted hv hs (counts_of_bad tail hf) hs, countMisses_counted]

theorem foreignFrame_echoed {s : State} {tail : Tail} {f : Frame} (hs : s.ctl.station.inStep = true)
    (ht : tailAgrees tail = true) (h : Spec.foreignFrame s f) : s.lossCause tail = none ∧ s.echoed tail = s := by
  obtain ⟨hf, hsent, hother, hbody, hsender⟩ := h
  have hno : s.settles tail f = false := by
    rw [← Bool.not_eq_true, settles_iff f hs ht]
    exact fun h => h.1.2 hsender
  have hv : s.verdict tail = s := by rw [verdict_of_unsettled hf hno, reportUnsettled_of_none tail hsent]
  exact ⟨lossCause_of_unsettled hs ht hf (Or.inl hother) hno,
    echoed_of_uncounted hv (Or.inr (Or.inl (counts_of_foreign tail hf ((foreign_iff f s).2 ⟨hs, hbody, hsender⟩))))⟩

theorem stays_inStep {s u : State} {c : Chassis} (h : Spec.stays s c u) : s.ctl.station.inStep = true := by
  rcases h with ⟨hst | ⟨hst, -⟩, -⟩ | ⟨hst, -⟩ <;> rw [hst] <;> rfl

theorem inStep_ne_adrift {st : Station} (h : st.inStep = true) : st ≠ .adrift := by
  rintro rfl
  cases h

/-- A frame that left the station with another copy alone: it stays in its state. -/
theorem exec_frameEnd_of_stays {s u : State} {tail : Tail} {c : Chassis} (h : Spec.ending s ∧ ¬Spec.broken s tail)
    (hu : Spec.stays s c u) (he : s.lossCause tail = none ∧ s.echoed tail = s.withChassis c) :
    exec (.frameEnd tail) s = .next (u.withEngine (Spec.ended s.engine)) := by
  have hst := inStep_ne_adrift (stays_inStep hu)
  obtain ⟨hc, he⟩ := he
  rcases hu with ⟨hm, rfl⟩ | ⟨ht, rfl⟩
  · exact exec_frameEnd_stays h hc hst he hm
  · exact exec_frameEnd_invalid h hc hst he (copyValid_false_of (by simp [ht]) (by simp [ht]))

/-- Settles O37. -/
theorem framesThatDoNotSettle : Obligations.FramesThatDoNotSettle := by
  intro s tail u h
  have hcomplete := agreed_complete h
  have ht := agreed_tail h
  refine ⟨fun hu => ⟨fun f hf => ?unsettled, fun hf => ?bad⟩, fun hu f hf => ?foreign⟩
  case unsettled => exact exec_frameEnd_of_stays hcomplete hu (unsettled_echoed (stays_inStep hu) ht hf)
  case bad => exact exec_frameEnd_of_stays hcomplete hu (badBody_echoed (stays_inStep hu) ht hf)
  case foreign => exact exec_frameEnd_of_stays hcomplete hu (foreignFrame_echoed (stays_inStep hu) ht hf)

/-! ### The station's own frames that do not settle (R72, R92, R93, R104) -/

theorem reportUnsettled_of_queue {s : State} {x : Sent} {h : Head} (tail : Tail) (hs : s.engine.sent = some x)
    (hp : x.path = .queue) (hf : s.queue.inFlight = some h) (ha : h.agingDue = false) :
    s.reportUnsettled tail = s.withQueue { s.queue with inFlight := some (Spec.spent h) } := by
  rw [State.reportUnsettled, hs]
  dsimp only
  rw [hp, modifyHead_of_inFlight _ hf, transmitted_eq ha]

theorem reportUnsettled_of_roster {s : State} {x : Sent} {f : Frame} (tail : Tail) (hs : s.engine.sent = some x)
    (hp : x.path = .roster) (hf : Spec.heard s f) : s.reportUnsettled tail
      = s.withCtl { s.ctl with duties := s.ctl.duties.map (fun d => d.failed (f.body.failedAdmission tail.echo)) } := by
  rw [State.reportUnsettled, hs]
  dsimp only
  rw [hp, (goodBody_iff s f).2 hf]

theorem reportUnsettled_of_join {s : State} {x : Sent} (tail : Tail) (hs : s.engine.sent = some x) (hp : x.path = .join) :
    s.reportUnsettled tail = s.joinComplete := by
  rw [State.reportUnsettled, hs]
  dsimp only
  rw [hp]

theorem failedAdmission_of_other {b : Body} (echo : StationSet) (h : ∀ r, b ≠ .roster r) : b.failedAdmission echo = none := by
  cases b with
  | roster r => exact absurd rfl (h r)
  | _ => rfl

/-- R93: only the admitted station failed to acknowledge the ROSTER. -/
theorem failedAdmission_eq_some (r : RosterBody) (echo : StationSet) (a : Addr) :
    (Body.roster r).failedAdmission echo = some a ↔ r.admitted = some a ∧ setHas echo a = false
      ∧ ∀ b, b ≠ a → setHas r.members b = true → setHas echo b = true := by
  have hwithin (a : Addr) : setWithin (r.members &&& ~~~setSingle a) echo = true ↔
      ∀ b, b ≠ a → setHas r.members b = true → setHas echo b = true := by
    rw [setWithin_iff]
    refine forall_congr' fun b => ?_
    rw [setHas_and, setHas_not, setHas_single, Bool.and_eq_true, Bool.not_eq_true', decide_eq_false_iff_not]
    exact ⟨fun h hne hb => h ⟨hb, hne⟩, fun h ⟨hb, hne⟩ => h hne hb⟩
  cases hr : r.admitted with
  | none => simp [Body.failedAdmission, hr]
  | some x =>
    simp only [Body.failedAdmission, hr, Option.ite_none_right_eq_some, Option.some.injEq, hwithin]
    refine ⟨?_, ?_⟩
    · rintro ⟨⟨hothers, hx⟩, rfl⟩
      exact ⟨rfl, hx, hothers⟩
    · rintro ⟨rfl, hx, hothers⟩
      exact ⟨⟨hothers, hx⟩, rfl⟩

theorem failed_list (d : Duties) (admission : Option Addr) :
    d.failed admission = { d with
      retries := d.retries + 1, list := d.list.filter (fun y => decide (admission ≠ some y)) } := by
  cases admission with
  | none => simp [Duties.failed]
  | some a => simp [Duties.failed, eq_comm]

/-- An own frame that did not settle has left the station in step as `t`: its echo is counted. -/
theorem own_echoed {s t : State} {tail : Tail} {f : Frame} {x : Sent} (h : Spec.agreed s tail) (hf : Spec.heard s f)
    (hsent : s.engine.sent = some x) (hs : s.ctl.station.inStep = true) (hsender : s.chassis.record f.sender ≠ none)
    (hecho : setWithin (s.expecting f) tail.echo = false) (hv : s.reportUnsettled tail = t)
    (hstation : t.ctl.station = s.ctl.station) (hchassis : t.chassis = s.chassis) :
    s.lossCause tail = none ∧ s.echoed tail = t.withChassis (Spec.counted s.chassis tail.echo) := by
  have hno : s.settles tail f = false := by
    rw [← Bool.not_eq_true, settles_iff f hs (agreed_tail h)]
    exact fun h => Bool.false_ne_true (hecho.symm.trans h.2)
  refine ⟨lossCause_of_unsettled hs (agreed_tail h) hf (Or.inr (by rw [hsent]; nofun)) hno, ?_⟩
  rw [echoed_of_counted ((verdict_of_unsettled hf hno).trans hv) hs
    (counts_of_unsettled hf (foreign_false_of_member hsender) hno) (by rw [hstation]; exact hs), hchassis, countMisses_counted]

theorem inStep_of_member_or_leaving {s : State} {p : Prop} (h : s.ctl.station = .member ∨ (s.ctl.station = .leaving ∧ p)) :
    s.ctl.station.inStep = true := by
  rcases h with h | ⟨h, -⟩ <;> rw [h] <;> rfl

/-- Settles O38. -/
theorem ownFramesThatDoNotSettle : Obligations.OwnFramesThatDoNotSettle := by
  rintro s tail f x c h hf hsent hst hself hsender rfl
  have hs := inStep_of_member_or_leaving hst
  have hcomplete := agreed_complete h
  refine ⟨fun n y hp hb hecho hy => ?queue, fun r d hp hb hecho hd => ?roster, fun index content d hp hb hecho hd => ?snap⟩
  case queue =>
    obtain ⟨haging, -⟩ := h.1.1.2.1 y hy
    obtain ⟨hc, he⟩ := own_echoed h hf hsent hs hsender (by rwa [expecting_of_other (by rw [hb]; nofun)])
      (reportUnsettled_of_queue tail hsent hp hy haging) rfl rfl
    exact exec_frameEnd_stays hcomplete hc (inStep_ne_adrift hs) he hst
  case roster =>
    have hreport := reportUnsettled_of_roster tail hsent hp hf
    rw [hd, Option.map_some, failed_list] at hreport
    obtain ⟨hc, he⟩ := own_echoed h hf hsent hs hsender (by rwa [expecting_of_roster hb]) hreport rfl rfl
    refine (exec_frameEnd_stays hcomplete hc (inStep_ne_adrift hs) he hst).trans ?_
    simp only [← failedAdmission_eq_some, ← hb]
    rfl
  case snap =>
    have hreport := reportUnsettled_of_roster tail hsent hp hf
    rw [hd, Option.map_some, failedAdmission_of_other _ (by rw [hb]; nofun), failed_none] at hreport
    obtain ⟨hc, he⟩ := own_echoed h hf hsent hs hsender (by rwa [expecting_of_other (by rw [hb]; nofun)]) hreport rfl rfl
    exact exec_frameEnd_stays hcomplete hc (inStep_ne_adrift hs) he hst

/-! ### Stations outside the chassis (R54, R104, R107, R119) -/

theorem judges_of_joining {s : State} (f : Frame) (h : s.ctl.station = .joining) : s.judges f = f.body.admits s.self := by
  rw [State.judges, h]

theorem judges_of_detached {s : State} (f : Frame) (h : s.ctl.station = .detached) : s.judges f = false := by
  rw [State.judges, h]

theorem judges_of_adrift {s : State} (f : Frame) (h : s.ctl.station = .adrift) :
    s.judges f = true ↔ ∃ r, f.body = .roster r := by
  rw [State.judges, h]
  cases f.body <;> simp

/-- What does not settle outside the chassis, and is not the station's own, leaves the station as it was. -/
theorem verdict_of_not_settled {s : State} {tail : Tail} (hsent : s.engine.sent = none)
    (h : ∀ f, Spec.heard s f → s.settles tail f = false) : s.verdict tail = s := by
  by_cases hf : ∃ f, Spec.heard s f
  · obtain ⟨f, hf⟩ := hf
    rw [verdict_of_unsettled hf (h f hf), reportUnsettled_of_none tail hsent]
  · rw [verdict_of_bad tail fun f hh => hf ⟨f, hh⟩, reportUnsettled_of_none tail hsent]

theorem exec_frameEnd_outsider {s t : State} {tail : Tail} (h : Spec.ending s ∧ ¬Spec.broken s tail)
    (hs : s.ctl.station.inStep = false) (hv : s.verdict tail = t) (ht : t.copyValid = false) : exec (.frameEnd tail) s
      = .next ((t.countAdrift (decide (s.ctl.station = .adrift))).withEngine
          (Spec.ended (t.countAdrift (decide (s.ctl.station = .adrift))).engine)) := by
  rw [exec_frameEnd_complete h.1 h.2, complete_of_noLoss (lossCause_outside tail hs), echoed_of_uncounted hv (Or.inl hs),
    afterEcho_invalid ht]

theorem tail_of_settles {s : State} {tail : Tail} {f : Frame} (h : s.settles tail f = true) :
    (tail.check = echoCheck tail.echo ∧ tail.echo = tail.ack) ∧ s.judges f = true
      ∧ setWithin (s.expecting f) tail.echo = true := by
  rwa [State.settles, Bool.and_eq_true, Bool.and_eq_true, tailAgrees_iff, and_assoc] at h

theorem countAdrift_of_adrift {s t : State} (h : s.ctl.station = .adrift) (ht : t.ctl.station = .adrift) :
    t.countAdrift (decide (s.ctl.station = .adrift)) = t.withCtl { t.ctl with adriftFrames := t.ctl.adriftFrames + 1 } := by
  rw [State.countAdrift, decide_eq_true h, decide_eq_true ht]
  rfl

/-- R119: a settled ROSTER that holds an ADRIFT station leaves it as it was. -/
theorem settleFrame_of_adrift_held {s : State} {f : Frame} {r : RosterBody} (h : s.ctl.station = .adrift)
    (hr : f.body = .roster r) (hself : setHas r.members s.straps.addr = true) : s.settleFrame f = s := by
  rw [State.settleFrame, h]
  dsimp only
  rw [hr]
  exact if_pos hself

/-- Settles O39. -/
theorem completeFramesOutsideTheChassis : Obligations.CompleteFramesOutsideTheChassis := by
  intro s tail h hb
  refine ⟨fun hst hsent => ?detached, fun hst hsent hno => ?joining, fun x f hst hsent hp hf hj => ?own, fun hst hsent hno => ?adrift⟩
  all_goals have hs : s.ctl.station.inStep = false := by rw [hst]; rfl
  all_goals have hv : s.copyValid = false := copyValid_false_of (by simp [hst]) (by simp [hst])
  case detached =>
    have hverdict : s.verdict tail = s := verdict_of_not_settled hsent fun f _ => by
      rw [State.settles, judges_of_detached f hst, Bool.and_false, Bool.false_and]
    rw [exec_frameEnd_outsider ⟨h, hb⟩ hs hverdict hv, countAdrift_of_other (by simp [hst])]
  case joining =>
    have hverdict : s.verdict tail = s := verdict_of_not_settled hsent fun f hf => by
      rw [← Bool.not_eq_true]
      intro hsettles
      obtain ⟨⟨hc, he⟩, hjudges, hecho⟩ := tail_of_settles hsettles
      rw [judges_of_joining f hst, admits_iff] at hjudges
      obtain ⟨r, hr, hadmitted⟩ := hjudges
      rw [expecting_of_roster hr] at hecho
      rcases hno f r hf hr with hn | hn | hn | hn
      · exact hn hadmitted
      · exact Bool.false_ne_true (hn.symm.trans hecho)
      · exact hn hc
      · exact hn he
    rw [exec_frameEnd_outsider ⟨h, hb⟩ hs hverdict hv, countAdrift_of_other (by simp [hst])]
  case own =>
    have hsettles : s.settles tail f = false := by
      rw [State.settles, judges_of_joining f hst, hj]
      simp [Body.admits]
    have hverdict : s.verdict tail = s.withCtl { s.ctl with joinOwed := false, joinTimer := some s.items.joinWait } := by
      rw [verdict_of_unsettled hf hsettles, reportUnsettled_of_join tail hsent hp, State.joinComplete, if_pos hst]
    rw [exec_frameEnd_outsider ⟨h, hb⟩ hs hverdict hv, countAdrift_of_other (by simp [hst])]
    rfl
  case adrift =>
    have hverdict : s.verdict tail = s := by
      by_cases hf : ∃ f, Spec.heard s f ∧ s.settles tail f = true
      · obtain ⟨f, hf, hsettles⟩ := hf
        obtain ⟨⟨hc, he⟩, hjudges, hecho⟩ := tail_of_settles hsettles
        obtain ⟨r, hr⟩ := (judges_of_adrift f hst).1 hjudges
        rw [expecting_of_roster hr] at hecho
        rw [verdict_of_settled hf hsettles]
        refine settleFrame_of_adrift_held hst hr ?_
        rcases hno f r hf hr with hn | hn | hn | hn
        · exact hn
        · exact absurd (hn.symm.trans hecho) Bool.false_ne_true
        · exact absurd hc hn
        · exact absurd he hn
      · exact verdict_of_not_settled hsent fun f hh => by
          rw [← Bool.not_eq_true]
          exact fun hsettles => hf ⟨f, hh, hsettles⟩
    rw [exec_frameEnd_outsider ⟨h, hb⟩ hs hverdict hv, countAdrift_of_adrift hst hst]
    rfl

end Sys2Proof.Machine
end

section
/-! PROOFS. A settled frame at a MEMBER or LEAVING station (R54, R74, R90, R91, R98, R114, R116). -/

namespace Sys2Proof.Machine

/-! ### The copy applied (R23, R35, R37, R98) -/

/-- The station with an applied copy and the level it gives; `changes` says whether the roster changed. -/
def State.applying (c : Chassis) (changes : Bool) (s : State) : State :=
  let t := ((s.withChassis c).setCauseIf (decide (c.first.isSome ≠ s.chassis.first.isSome)) .chassisFirst).setCauseIf
    changes .rosterChange
  (t.withOutputs { t.outputs with lastKnown := c.level }).redrive

theorem applying_ctl (c : Chassis) (changes : Bool) (s : State) : (s.applying c changes).ctl = s.ctl := by
  simp [State.applying]

theorem applying_rest (c : Chassis) (changes : Bool) (s : State) :
    (s.applying c changes).engine = s.engine ∧ (s.applying c changes).queue = s.queue
      ∧ (s.applying c changes).log = s.log ∧ (s.applying c changes).port = s.port := by
  simp [State.applying]

theorem applying_applied {s : State} (c : Chassis) (changes : Bool) (h : s.copyValid = true) :
    Spec.applied s (s.applying c changes) c (if changes then 0x08 else 0) := by
  have hlevel : ((((s.withChassis c).setCauseIf (decide (c.first.isSome ≠ s.chassis.first.isSome)) .chassisFirst).setCauseIf
      changes .rosterChange).withOutputs { s.outputs with lastKnown := c.level }).levelToDrive = c.level := by
    rw [State.levelToDrive_valid]
    · simp
    · simpa [State.copyValid] using h
  have hfirst : (if decide (c.first.isSome ≠ s.chassis.first.isSome) = true then Cause.chassisFirst.bit else 0)
      = if c.first.isSome = s.chassis.first.isSome then 0 else 0x20 := by
    by_cases he : c.first.isSome = s.chassis.first.isSome
    · simp [he]
    · rw [if_neg he, if_pos (decide_eq_true he)]
      rfl
  unfold Spec.applied State.applying
  simp only [State.redrive_chassis, State.redrive_outputs, State.redrive_causes, State.redrive_mask, State.redrive_monitor,
    State.redrive_items, State.redrive_power, State.redrive_straps, State.redrive_freeCount, State.redrive_pending,
    State.withOutputs_chassis, State.withOutputs_outputs, State.withOutputs_alerts, State.withOutputs_monitor,
    State.withOutputs_items, State.withOutputs_power, State.withOutputs_straps, State.withOutputs_freeCount,
    State.withOutputs_pending, State.setCauseIf_chassis, State.setCauseIf_outputs, State.setCauseIf_causes,
    State.setCauseIf_mask, State.setCauseIf_monitor, State.setCauseIf_items, State.setCauseIf_power,
    State.setCauseIf_straps, State.setCauseIf_freeCount, State.setCauseIf_pending, State.withChassis_outputs,
    State.withChassis_chassis, State.withChassis_alerts, State.withChassis_monitor, State.withChassis_items,
    State.withChassis_power, State.withChassis_straps, State.withChassis_freeCount, State.withChassis_pending, hlevel, hfirst]
  exact ⟨trivial, rfl, rfl, rfl, trivial, rfl, trivial, trivial, trivial, trivial, trivial, trivial⟩

/-- The Roster Controller after a numbered frame (R91, R114). -/
def Ctl.afterFrame (c : Ctl) (b : Body) : Ctl :=
  { c with admission := b.admission, duties := c.duties.map (fun d => { d with sequencer := none }) }

theorem withCtl_duties {s : State} {d : Option Duties} (h : s.ctl.duties = d) :
    s.withCtl { s.ctl with duties := d } = s := by
  subst h
  rfl

/-- R91: a settled frame other than a SNAP makes the sequencer idle. -/
theorem stopSequencer_eq {b : Body} (s : State) (h : b.numbered = true) : s.stopSequencer b
    = s.withCtl { s.ctl with duties := s.ctl.duties.map (fun d => { d with sequencer := none }) } := by
  cases hd : s.ctl.duties with
  | none =>
    rw [Option.map_none, withCtl_duties hd]
    cases b with
    | snap index content => rfl
    | _ => simp only [State.stopSequencer, hd]
  | some d =>
    cases b with
    | snap index content => cases h
    | _ => simp only [State.stopSequencer, hd, Option.map_some]

theorem trackAdmission_eq {b : Body} (s : State) (h : b.numbered = true) :
    s.trackAdmission b = s.withCtl { s.ctl with admission := b.admission } := by
  cases b with
  | snap index content => cases h
  | _ => rfl

theorem levelApplied_eq {b : Body} (s : State) (h : b.numbered = true) :
    s.levelApplied b = (s.withOutputs { s.outputs with lastKnown := s.chassis.level }).redrive := if_pos h

/-- A numbered frame, applied: copy, level and alert causes, then Roster Controller and foreign-reported set. -/
theorem applyFrame_numbered {s : State} {f : Frame} (h : f.body.numbered = true) : s.applyFrame f
    = ((s.applying (s.chassis.apply f.sender f.body) f.body.changesRoster).withCtl (s.ctl.afterFrame f.body)).clearForeign
        f.body := by
  have hlevel : (((s.withChassis (s.chassis.apply f.sender f.body)).setCauseIf
      (decide ((s.chassis.apply f.sender f.body).first.isSome ≠ s.chassis.first.isSome)) .chassisFirst).setCauseIf
        f.body.changesRoster .rosterChange).levelApplied f.body
      = s.applying (s.chassis.apply f.sender f.body) f.body.changesRoster := by
    rw [levelApplied_eq _ h, State.applying]
    simp only [State.setCauseIf_chassis, State.withChassis_chassis]
  have hctl := applying_ctl (s.chassis.apply f.sender f.body) f.body.changesRoster s
  rw [State.applyFrame, State.withChassis_chassis, hlevel, trackAdmission_eq _ h, stopSequencer_eq _ h, clearForeign_ctl, hctl]
  cases f.body <;> rfl

theorem applyFrame_notice {s : State} {f : Frame} {n : Notice} (hb : f.body = .notice n) : s.applyFrame f
    = (s.applying (s.chassis.apply f.sender f.body) n.isLeave).withCtl (s.ctl.afterFrame f.body) := by
  rw [applyFrame_numbered (by rw [hb]; rfl), hb]
  rfl

theorem clearForeign_roster (r : RosterBody) (s : State) :
    s.clearForeign (.roster r) = s.withEngine { s.engine with foreign := 0 } := rfl

/-! ### What settles at a member -/

/-- A settled frame that the station has not sent itself, or one of its own, loses no step with the right generation. -/
theorem lossCause_of_settled {s : State} {tail : Tail} {f : Frame} (hs : s.ctl.station.inStep = true)
    (ht : tailAgrees tail = true) (hf : Spec.heard s f) (hsender : f.sender ≠ s.straps.addr ∨ s.engine.sent ≠ none)
    (hgen : s.wrongGeneration f = false) : s.lossCause tail = none := by
  rw [lossCause_heard hs ht hf, if_neg (not_duplicate hsender), hgen, if_neg fun h => Bool.false_ne_true h.2]

theorem settleFrame_of_valid {s : State} (f : Frame) (h : s.ctl.station = .member ∨ s.ctl.station = .leaving) :
    s.settleFrame f = s.settleAtMember f := by
  rcases h with h | h <;> rw [State.settleFrame, h]

theorem settleAtMember_other {s : State} {f : Frame} (h : ∀ r, f.body ≠ .roster r) :
    s.settleAtMember f = (s.applyFrame f).reportIfOwn f s.chassis := by
  unfold State.settleAtMember
  cases hb : f.body with
  | roster r => exact absurd hb (h r)
  | _ => rfl

theorem settleAtMember_held {s : State} {f : Frame} {r : RosterBody} (hb : f.body = .roster r)
    (h : setHas r.members s.straps.addr = true) : s.settleAtMember f = (s.applyFrame f).reportIfOwn f s.chassis := by
  rw [State.settleAtMember, hb]
  exact if_pos h

theorem settleAtMember_removed {s : State} {f : Frame} {r : RosterBody} (hb : f.body = .roster r)
    (h : setHas r.members s.straps.addr = false) : s.settleAtMember f = s.removedBy r := by
  rw [State.settleAtMember, hb]
  exact if_neg (by rw [State.self, h]; exact Bool.false_ne_true)

theorem reportIfOwn_of_none {s : State} {f : Frame} (before : Chassis) (h : s.engine.sent = none) :
    s.reportIfOwn f before = s := by
  rw [State.reportIfOwn, h]

theorem reportIfOwn_of_sent {s : State} {f : Frame} {x : Sent} (before : Chassis) (h : s.engine.sent = some x) :
    s.reportIfOwn f before = s.reportSettled x.path f before := by
  rw [State.reportIfOwn, h]

theorem inStep_of_valid {st : Station} (h : st = .member ∨ st = .leaving) : st.inStep = true := by
  rcases h with rfl | rfl <;> rfl

/-! ### Settled notices (R54, R74, R116) -/

theorem applyClear_records (c : Chassis) (sender : Addr) (scope : Scope) (o : Addr) (reference : Word) :
    (c.applyClear sender scope o reference).records = c.records := by
  unfold Chassis.applyClear
  split
  · cases scope <;> rfl
  · rfl
  · rfl

/-- A settled notice leaves the member map as it was. -/
theorem apply_notice_map (c : Chassis) (sender : Addr) (n : Notice) : (c.apply sender (.notice n)).map = c.map := by
  refine set_ext fun a => ?_
  rw [setHas_map, setHas_map]
  cases n with
  | fault r =>
    obtain ⟨-, -, hrecords, -⟩ := apply_fault_faultFrame c sender r
    rw [Chassis.record, hrecords, Chassis.record]
  | resolve source => rw [apply_resolve]; rfl
  | clear scope o reference =>
    rw [apply_clear, Chassis.record, Chassis.record]
    simp only [applyClear_records]
  | leave =>
    rw [apply_leave_record]
    split
    · rw [Option.isSome_map]
    · rfl

theorem isLeave_iff (n : Notice) : n.isLeave = true ↔ n = .leave := by cases n <;> simp [Notice.isLeave]

theorem record_ne_none_of_map {c d : Chassis} {a : Addr} (h : d.map = c.map) (ha : c.record a ≠ none) : d.record a ≠ none := by
  rw [← Option.isSome_iff_ne_none, ← setHas_map] at ha ⊢
  rwa [h]

theorem heardAll_first (c : Chassis) : (Spec.heardAll c).first = c.first := by simp only [Spec.heardAll]
theorem heardAll_level (c : Chassis) : (Spec.heardAll c).level = c.level := by simp only [Spec.heardAll]

/-- The count of an echo in which every member is acknowledged changes the miss counts alone. -/
theorem applied_heardAll {s t : State} {c : Chassis} {causes : Byte} (h : Spec.applied s t c causes) :
    Spec.applied s (t.withChassis (Spec.heardAll c)) (Spec.heardAll c) causes := by
  obtain ⟨-, hrest⟩ := h
  refine ⟨rfl, ?_⟩
  rw [heardAll_first, heardAll_level]
  exact hrest

theorem withChassis_rest {s t : State} (c : Chassis)
    (h : t.engine = s.engine ∧ t.queue = s.queue ∧ t.log = s.log ∧ t.port = s.port) :
    (t.withChassis c).engine = s.engine ∧ (t.withChassis c).queue = s.queue ∧ (t.withChassis c).log = s.log
      ∧ (t.withChassis c).port = s.port := h

theorem settles_of_member {s : State} {tail : Tail} {f : Frame} (h : Spec.agreed s tail) (hs : s.ctl.station.inStep = true)
    (hbody : f.body ≠ .join) (hsender : s.chassis.record f.sender ≠ none)
    (hecho : setWithin (s.expecting f) tail.echo = true) : s.settles tail f = true :=
  (settles_iff f hs (agreed_tail h)).2 ⟨⟨hbody, hsender⟩, hecho⟩

/-- A settled notice or SNAP leaves the station as `u`, with the echo counted (R54, R55). -/
theorem settled_echoed {s u : State} {tail : Tail} {f : Frame} (h : Spec.agreed s tail) (hf : Spec.heard s f)
    (hst : s.ctl.station = .member ∨ s.ctl.station = .leaving) (hother : f.sender ≠ s.straps.addr ∨ s.engine.sent ≠ none)
    (hsender : s.chassis.record f.sender ≠ none) (hbody : f.body ≠ .join) (hnr : ∀ r, f.body ≠ .roster r)
    (hecho : setWithin s.chassis.map tail.echo = true) (hu : (s.applyFrame f).reportIfOwn f s.chassis = u)
    (hstation : u.ctl.station.inStep = true) (hmap : u.chassis.map = s.chassis.map) :
    s.lossCause tail = none ∧ s.echoed tail = u.withChassis (Spec.heardAll u.chassis) := by
  have hs := inStep_of_valid hst
  have hsettles := settles_of_member h hs hbody hsender (by rwa [expecting_of_other hnr])
  refine ⟨lossCause_of_settled hs (agreed_tail h) hf hother (wrongGeneration_of_other hnr), ?_⟩
  have hverdict : s.verdict tail = u := by
    rw [verdict_of_settled hf hsettles, settleFrame_of_valid f hst, settleAtMember_other hnr, hu]
  rw [echoed_of_counted hverdict hs (counts_of_other tail hf (foreign_false_of_member hsender) hnr) hstation,
    countMisses_heardAll (by rwa [hmap]) (record_ne_none_of_map hmap hsender)]

/-- A settled notice of another station (R54): its application, and the echo counted. -/
theorem noticeOfAnother_echoed {s : State} {tail : Tail} {f : Frame} {n : Notice} (h : Spec.agreed s tail)
    (hf : Spec.heard s f) (hsent : s.engine.sent = none) (hst : s.ctl.station = .member ∨ s.ctl.station = .leaving)
    (hb : f.body = .notice n) (hother : f.sender ≠ s.straps.addr) (hsender : s.chassis.record f.sender ≠ none)
    (hecho : setWithin s.chassis.map tail.echo = true) :
    s.lossCause tail = none ∧ ∃ mid, s.echoed tail = mid
      ∧ Spec.applied s mid (Spec.heardAll (s.chassis.apply f.sender f.body)) (if n = .leave then 0x08 else 0)
      ∧ mid.ctl = s.ctl.afterFrame f.body ∧ mid.engine = s.engine ∧ mid.queue = s.queue ∧ mid.log = s.log
      ∧ mid.port = s.port := by
  have hrest := applying_rest (s.chassis.apply f.sender f.body) n.isLeave s
  have happlied := applying_applied (s.chassis.apply f.sender f.body) n.isLeave ((copyValid_iff s).2 hst)
  have hchassis : (s.applying (s.chassis.apply f.sender f.body) n.isLeave).chassis = s.chassis.apply f.sender f.body :=
    happlied.1
  have hu : (s.applyFrame f).reportIfOwn f s.chassis
      = (s.applying (s.chassis.apply f.sender f.body) n.isLeave).withCtl (s.ctl.afterFrame f.body) := by
    rw [applyFrame_notice hb]
    exact reportIfOwn_of_none _ ((congrArg Engine.sent hrest.1).trans hsent)
  have hmap : (s.applying (s.chassis.apply f.sender f.body) n.isLeave).chassis.map = s.chassis.map := by
    rw [hchassis, hb, apply_notice_map]
  obtain ⟨hc, he⟩ := settled_echoed h hf hst (Or.inl hother) hsender (by rw [hb]; nofun) (by rw [hb]; nofun) hecho hu
    (inStep_of_valid hst) hmap
  refine ⟨hc, _, he, ?_, rfl, withChassis_rest _ hrest⟩
  rw [State.withCtl_chassis, hchassis, ← if_congr (isLeave_iff n) rfl rfl]
  exact applied_heardAll happlied

theorem roled_ctl {t : State} {c : Chassis} {self : Addr} (hc : t.chassis = c) (hs : t.straps.addr = self) :
    t.roled.ctl = { t.ctl with duties := Spec.role c self t.ctl.duties } := by
  subst hc hs
  rfl

/-- Settles O32. -/
theorem settledNoticeOfAnotherStation : Obligations.SettledNoticeOfAnotherStation := by
  rintro s tail f n c h hf hsent hst hb hother hsender hecho rfl hstays
  obtain ⟨hc, mid, he, happlied, hctl, hengine, hqueue, hlog, hport⟩ :=
    noticeOfAnother_echoed h hf hsent hst hb hother hsender hecho
  have hstation : mid.ctl.station = s.ctl.station := by rw [hctl]; rfl
  have hstayed := happlied
  obtain ⟨hchassis, -, -, -, -, -, -, -, -, hstraps, -⟩ := hstayed
  have hmid : mid.ctl.station = .member ∨ (mid.ctl.station = .leaving ∧ mid.chassis.rosterStation ≠ none) := by
    rw [hstation, hchassis]
    exact hst.imp id fun hl => ⟨hl, hstays.resolve_left (by rw [hl]; nofun)⟩
  refine ⟨_, exec_frameEnd_stays (agreed_complete h) hc (inStep_ne_adrift (inStep_of_valid hst)) he hmid, happlied, ?_, ?_, hqueue,
    hlog, hport⟩
  · rw [State.withEngine_engine, hengine]
  · rw [State.withEngine_ctl, roled_ctl hchassis (by rw [hstraps]), hctl, hb]
    rfl

end Sys2Proof.Machine
end

section
/-! PROOFS. The station's own settled notices (R32, R74, R116). -/

namespace Sys2Proof.Machine

/-! ### The reports of an own settled notice -/

theorem headLink_eq {q : Queue} {h : Head} (hf : q.inFlight = some h) : q.headLink = h.item.link := by
  rw [Queue.headLink, hf]

theorem settleHead_eq {s : State} {h : Head} (w : Word) (hf : s.queue.inFlight = some h) : s.settleHead w
    = (s.withQueue { s.queue with inFlight := none }).withLog
        (h.item.link.elim s.log (fun source => s.log.setState source (.reported w))) := by
  rw [State.settleHead, headLink_eq hf]
  cases h.item.link <;> rfl

/-- The station after the reports of its own settled notice. -/
def State.ownSettled (n : Notice) (before : Chassis) (s : State) : State :=
  ((s.settleHead before.nextSettle).recordClear n before).ownLeave n

theorem reportSettled_queue {s : State} {f : Frame} {n : Notice} (before : Chassis) (hb : f.body = .notice n) :
    s.reportSettled .queue f before = s.ownSettled n before := by
  unfold State.reportSettled
  rw [hb]
  rfl

theorem ownLeave_eq (n : Notice) (s : State) : s.ownLeave n = s.withCtl { s.ctl with
    station := if n = .leave then .leaving else s.ctl.station
    joinTimer := if n = .leave then none else s.ctl.joinTimer } := by
  cases n <;> rfl

theorem recordClear_ctl (n : Notice) (before : Chassis) (s : State) : (s.recordClear n before).ctl = s.ctl := by
  cases n <;> rfl

theorem recordClear_engine (n : Notice) (before : Chassis) (s : State) : (s.recordClear n before).engine = s.engine := by
  cases n <;> rfl

theorem ownSettled_ctl {s : State} {h : Head} (n : Notice) (before : Chassis) (hf : s.queue.inFlight = some h) :
    (s.ownSettled n before).ctl = { s.ctl with
      station := if n = .leave then .leaving else s.ctl.station
      joinTimer := if n = .leave then none else s.ctl.joinTimer } := by
  rw [State.ownSettled, ownLeave_eq, State.withCtl_ctl, recordClear_ctl, settleHead_eq _ hf]
  rfl

theorem ownSettled_engine {s : State} {h : Head} (n : Notice) (before : Chassis) (hf : s.queue.inFlight = some h) :
    (s.ownSettled n before).engine = s.engine := by
  rw [State.ownSettled, ownLeave_eq, State.withCtl_engine, recordClear_engine, settleHead_eq _ hf]
  rfl

theorem or_middle (a b c : Byte) : a ||| 0 ||| b ||| c = a ||| c ||| b := by
  rw [show a ||| 0 = a from BitVec.or_zero, BitVec.or_assoc, BitVec.or_comm b c, BitVec.or_assoc]

theorem applied_withPort_setCause {s t : State} {c : Chassis} (p : Port) (cause : Cause) (h : Spec.applied s t c 0) :
    Spec.applied s ((t.withPort p).setCause cause) c cause.bit := by
  obtain ⟨hchassis, hknown, hdriven, hpolicy, hmask, hpending, hrest⟩ := h
  refine ⟨hchassis, hknown, hdriven, hpolicy, hmask, ?_, hrest⟩
  rw [State.setCause_causes, State.withPort_alerts, hpending, or_middle]

/-- R32, R98: the reports of an own settled notice add the cause of a CLEAR to those of its application. -/
theorem ownSettled_applied {s t : State} {c : Chassis} {h : Head} {n : Notice} (before : Chassis)
    (hf : t.queue.inFlight = some h) (happlied : Spec.applied s t c (if n.isLeave then 0x08 else 0)) :
    Spec.applied s (t.ownSettled n before) c (Spec.ownCause n) := by
  rw [State.ownSettled, settleHead_eq _ hf]
  cases n with
  | clear scope o reference => exact applied_withPort_setCause _ _ happlied
  | _ => exact happlied

theorem ownSettled_headSettled {s t : State} {h : Head} (hf : s.queue.inFlight = some h)
    (hrest : t.queue = s.queue ∧ t.log = s.log ∧ t.port = s.port) (hstraps : t.straps = s.straps) :
    Spec.headSettled s (t.ownSettled h.item.notice s.chassis) h := by
  obtain ⟨hqueue, hlog, hport⟩ := hrest
  rw [State.ownSettled, settleHead_eq _ (by rw [hqueue, hf]), hqueue, hlog]
  unfold Item.link Spec.headSettled
  cases h.item.notice with
  | fault r =>
    refine ⟨rfl, fun r' hr => ?_, fun hno => absurd rfl (hno r), nofun, fun _ => hport⟩
    injection hr with hr
    subst hr
    cases h.item.linked <;> rfl
  | clear scope o reference =>
    refine ⟨rfl, nofun, fun _ => rfl, fun scope' o' reference' hc => ?_, fun hno => absurd rfl (hno scope o reference)⟩
    injection hc with hscope ho hreference
    subst hscope ho hreference
    rw [← hport, ← hstraps]
    rfl
  | resolve source => exact ⟨rfl, nofun, fun _ => rfl, nofun, fun _ => hport⟩
  | leave => exact ⟨rfl, nofun, fun _ => rfl, nofun, fun _ => hport⟩

/-- A settled notice of the station's own (R54): its application and reports, and the echo counted. -/
theorem noticeOfOwn_echoed {s : State} {tail : Tail} {f : Frame} {h : Head} {x : Sent} (hagreed : Spec.agreed s tail)
    (hf : Spec.heard s f) (hsent : s.engine.sent = some x) (hp : x.path = .queue) (hhead : s.queue.inFlight = some h)
    (hst : s.ctl.station = .member ∨ s.ctl.station = .leaving) (hb : f.body = .notice h.item.notice)
    (hsender : s.chassis.record f.sender ≠ none) (hecho : setWithin s.chassis.map tail.echo = true) :
    s.lossCause tail = none ∧ ∃ mid, s.echoed tail = mid
      ∧ Spec.applied s mid (Spec.heardAll (s.chassis.apply f.sender f.body)) (Spec.ownCause h.item.notice)
      ∧ mid.ctl = { s.ctl.afterFrame f.body with
          station := if h.item.notice = .leave then .leaving else s.ctl.station
          joinTimer := if h.item.notice = .leave then none else s.ctl.joinTimer }
      ∧ mid.engine = s.engine ∧ Spec.headSettled s mid h := by
  obtain ⟨hengine, hqueue, hlog, hport⟩ := applying_rest (s.chassis.apply f.sender f.body) h.item.notice.isLeave s
  have happlied := applying_applied (s.chassis.apply f.sender f.body) h.item.notice.isLeave ((copyValid_iff s).2 hst)
  have hu := applyFrame_notice (s := s) hb
  generalize s.applying (s.chassis.apply f.sender f.body) h.item.notice.isLeave = v at *
  have hhead' : (v.withCtl (s.ctl.afterFrame f.body)).queue.inFlight = some h := by
    rw [State.withCtl_queue, hqueue, hhead]
  have hsent' : (v.withCtl (s.ctl.afterFrame f.body)).engine.sent = some x := by rw [State.withCtl_engine, hengine, hsent]
  have hu : (s.applyFrame f).reportIfOwn f s.chassis
      = (v.withCtl (s.ctl.afterFrame f.body)).ownSettled h.item.notice s.chassis := by
    rw [hu, reportIfOwn_of_sent _ hsent', hp, reportSettled_queue _ hb]
  have hstraps : v.straps = s.straps := by
    obtain ⟨-, -, -, -, -, -, -, -, -, hstraps, -⟩ := happlied
    exact hstraps
  have happlied := ownSettled_applied s.chassis hhead' happlied
  have hctl := ownSettled_ctl h.item.notice s.chassis hhead'
  have hengine := (ownSettled_engine h.item.notice s.chassis hhead').trans hengine
  have hsettled := ownSettled_headSettled (t := v.withCtl (s.ctl.afterFrame f.body)) hhead ⟨hqueue, hlog, hport⟩ hstraps
  generalize (v.withCtl (s.ctl.afterFrame f.body)).ownSettled h.item.notice s.chassis = u at *
  have hstation : u.ctl.station.inStep = true := by
    rw [hctl]
    refine inStep_of_valid ?_
    by_cases hl : h.item.notice = .leave
    · exact Or.inr (if_pos hl)
    · exact hst.imp (if_neg hl).trans (if_neg hl).trans
  have hmap : u.chassis.map = s.chassis.map := by rw [happlied.1, hb, apply_notice_map]
  obtain ⟨hc, he⟩ := settled_echoed hagreed hf hst (Or.inr (by rw [hsent]; nofun)) hsender (by rw [hb]; nofun)
    (by rw [hb]; nofun) hecho hu hstation hmap
  rw [happlied.1] at he
  exact ⟨hc, _, he, applied_heardAll happlied, hctl, hengine, hsettled⟩

/-- Settles O33. -/
theorem ownSettledNotice : Obligations.OwnSettledNotice := by
  rintro s tail f h x c hagreed hf hsent hp hhead hst hb - hsender hecho rfl hstays
  obtain ⟨hc, mid, he, happlied, hctl, hengine, hsettled⟩ :=
    noticeOfOwn_echoed hagreed hf hsent hp hhead hst hb hsender hecho
  have hstayed := happlied
  obtain ⟨hchassis, -, -, -, -, -, -, -, -, hstraps, -⟩ := hstayed
  have hmid : mid.ctl.station = .member ∨ (mid.ctl.station = .leaving ∧ mid.chassis.rosterStation ≠ none) := by
    rw [hctl, hchassis]
    by_cases hl : h.item.notice = .leave
    · exact Or.inr ⟨if_pos hl, hstays.resolve_left fun hm => hm.2 hl⟩
    · dsimp only
      rw [if_neg hl]
      rcases hstays with ⟨hm, -⟩ | hsome
      · exact Or.inl hm
      · exact hst.imp_right fun hleaving => ⟨hleaving, hsome⟩
  refine ⟨_, exec_frameEnd_stays (agreed_complete hagreed) hc (inStep_ne_adrift (inStep_of_valid hst)) he hmid, happlied, ?_, ?_,
    hsettled⟩
  · rw [State.withEngine_engine, hengine]
  · rw [State.withEngine_ctl, roled_ctl hchassis (by rw [hstraps]), hctl, hb]
    rfl

end Sys2Proof.Machine
end

section
/-! PROOFS. Settled ROSTER and SNAP frames at a MEMBER or LEAVING station (R90, R91, R92, R114). -/

namespace Sys2Proof.Machine

/-! ### Roster frames, whoever sent them -/

/-- A roster frame is another station's, or this one's own from its roster duties. -/
def Spec.rosterSent (s : State) (f : Frame) : Prop :=
  (s.engine.sent = none ∧ f.sender ≠ s.straps.addr) ∨ (∃ x, s.engine.sent = some x ∧ x.path = .roster)

theorem rosterSent_notDuplicate {s : State} {f : Frame} (h : Spec.rosterSent s f) :
    f.sender ≠ s.straps.addr ∨ s.engine.sent ≠ none := by
  rcases h with ⟨-, hother⟩ | ⟨x, hsent, -⟩
  · exact Or.inl hother
  · exact Or.inr (by rw [hsent]; nofun)

/-- The Roster Controller after the report of a roster frame this station may have sent (R90, R91). -/
def Ctl.reported (c : Ctl) (sent : Option Sent) (b : Body) : Ctl :=
  { c with duties := if sent.isSome then c.duties.map (fun d => d.settled b) else c.duties }

theorem reportIfOwn_roster {t : State} {f : Frame} (before : Chassis)
    (h : t.engine.sent = none ∨ ∃ x, t.engine.sent = some x ∧ x.path = .roster) :
    t.reportIfOwn f before = t.withCtl (t.ctl.reported t.engine.sent f.body) := by
  rcases h with hnone | ⟨x, hsome, hp⟩
  · rw [reportIfOwn_of_none before hnone, hnone]
    rfl
  · rw [reportIfOwn_of_sent before hsome, hsome, hp]
    rfl

theorem rosterSent_path {s : State} {f : Frame} (h : Spec.rosterSent s f) :
    s.engine.sent = none ∨ ∃ x, s.engine.sent = some x ∧ x.path = .roster := h.imp_left fun hnone => hnone.1

/-! ### ROSTER (R90) -/

theorem applyFrame_roster {s : State} {f : Frame} {r : RosterBody} (hb : f.body = .roster r) : s.applyFrame f
    = ((s.applying (s.chassis.apply f.sender f.body) true).withCtl (s.ctl.afterFrame f.body)).withEngine
        { s.engine with foreign := 0 } := by
  have hengine := (applying_rest (s.chassis.apply f.sender f.body) true s).1
  rw [applyFrame_numbered (by rw [hb]; rfl), hb]
  rw [hb] at hengine
  rw [clearForeign_roster, State.withCtl_engine]
  rw [show (Body.roster r).changesRoster = true from rfl, hengine]

/-- A settled ROSTER that holds the station leaves it as `u`; no echo is counted (R54, R55). -/
theorem settledRoster_echoed {s u : State} {tail : Tail} {f : Frame} {r : RosterBody} (h : Spec.agreed s tail)
    (hf : Spec.heard s f) (hst : s.ctl.station = .member ∨ s.ctl.station = .leaving)
    (hother : f.sender ≠ s.straps.addr ∨ s.engine.sent ≠ none) (hb : f.body = .roster r)
    (hsender : s.chassis.record f.sender ≠ none) (hecho : setWithin r.members tail.echo = true)
    (hself : setHas r.members s.straps.addr = true) (hgen : r.generation = s.chassis.generation + 1)
    (hu : (s.applyFrame f).reportIfOwn f s.chassis = u) : s.lossCause tail = none ∧ s.echoed tail = u := by
  have hs := inStep_of_valid hst
  have hsettles := settles_of_member h hs (by rw [hb]; nofun) hsender (by rwa [expecting_of_roster hb])
  have hright : s.wrongGeneration f = false := by
    rw [← Bool.not_eq_true, wrongGeneration_iff hb]
    exact fun hwrong => hwrong.2 hgen
  refine ⟨lossCause_of_settled hs (agreed_tail h) hf hother hright, echoed_of_uncounted ?_
    (Or.inr (Or.inl (counts_of_settledRoster hf hb hsettles)))⟩
  rw [verdict_of_settled hf hsettles, settleFrame_of_valid f hst, settleAtMember_held hb hself, hu]

theorem rosterHeld_echoed {s : State} {tail : Tail} {f : Frame} {r : RosterBody} (h : Spec.agreed s tail)
    (hf : Spec.heard s f) (hst : s.ctl.station = .member ∨ s.ctl.station = .leaving) (hsent : Spec.rosterSent s f)
    (hb : f.body = .roster r) (hsender : s.chassis.record f.sender ≠ none) (hecho : setWithin r.members tail.echo = true)
    (hself : setHas r.members s.straps.addr = true) (hgen : r.generation = s.chassis.generation + 1) :
    s.lossCause tail = none ∧ ∃ mid, s.echoed tail = mid
      ∧ Spec.applied s mid (s.chassis.apply f.sender f.body) 0x08
      ∧ mid.ctl = (s.ctl.afterFrame f.body).reported s.engine.sent f.body
      ∧ mid.engine = { s.engine with foreign := 0 } ∧ mid.queue = s.queue ∧ mid.log = s.log ∧ mid.port = s.port := by
  obtain ⟨-, hqueue, hlog, hport⟩ := applying_rest (s.chassis.apply f.sender f.body) true s
  have happlied := applying_applied (s.chassis.apply f.sender f.body) true ((copyValid_iff s).2 hst)
  have hu := applyFrame_roster (s := s) hb
  generalize s.applying (s.chassis.apply f.sender f.body) true = v at *
  have hpath := rosterSent_path hsent
  have hu := (congrArg (State.reportIfOwn f s.chassis) hu).trans (reportIfOwn_roster s.chassis hpath)
  obtain ⟨hc, he⟩ := settledRoster_echoed h hf hst (rosterSent_notDuplicate hsent) hb hsender hecho hself hgen hu
  exact ⟨hc, _, he, happlied, rfl, rfl, hqueue, hlog, hport⟩

theorem admission_roster (r : RosterBody) : (Body.roster r).admission
    = r.admitted.map (fun a => ⟨a, 1 + (if r.withFirst then 1 else 0) + r.entries⟩) := by
  cases h : r.admitted <;> simp [Body.admission, snapTotal, h]

/-- R90: the duties after an own settled ROSTER. -/
theorem settled_roster (d : Duties) (r : RosterBody) : ({ d with sequencer := none } : Duties).settled (.roster r)
    = { list := d.list.filter (fun y => decide (r.admitted ≠ some y))
        sequencer := r.admitted.map (fun a => ⟨a, 0, 1 + (if r.withFirst then 1 else 0) + r.entries⟩)
        retries := 0 } := by
  cases h : r.admitted with
  | none => simp [Duties.settled, h]
  | some a => simp [Duties.settled, snapTotal, h, @eq_comm _ a]

/-- Settles O34. -/
theorem settledRosterThatKeepsTheStation : Obligations.SettledRosterThatKeepsTheStation := by
  rintro s tail f r c h hf hst hb hsender hecho hself hgen rfl
  have hvalid : s.ctl.station = .member ∨ s.ctl.station = .leaving := hst.imp_right fun hl => hl.1
  have hexec (hsent : Spec.rosterSent s f) : ∃ t, exec (.frameEnd tail) s = .next t
      ∧ Spec.applied s t (s.chassis.apply f.sender f.body) 0x08
      ∧ t.engine = Spec.ended { s.engine with foreign := 0 }
      ∧ t.ctl = { s.ctl with
          admission := r.admitted.map (fun a => ⟨a, 1 + (if r.withFirst then 1 else 0) + r.entries⟩)
          duties := Spec.role (s.chassis.apply f.sender f.body) s.straps.addr
            ((s.ctl.afterFrame f.body).reported s.engine.sent f.body).duties }
      ∧ t.queue = s.queue ∧ t.log = s.log ∧ t.port = s.port := by
    obtain ⟨hc, mid, he, happlied, hctl, hengine, hrest⟩ :=
      rosterHeld_echoed h hf hvalid hsent hb hsender hecho hself hgen
    have hstayed := happlied
    obtain ⟨hchassis, -, -, -, -, -, -, -, -, hstraps, -⟩ := hstayed
    have hstation : mid.ctl.station = s.ctl.station := by rw [hctl]; rfl
    have hmid : mid.ctl.station = .member ∨ (mid.ctl.station = .leaving ∧ mid.chassis.rosterStation ≠ none) := by
      rw [hstation, hchassis]
      exact hst
    refine ⟨_, exec_frameEnd_stays (agreed_complete h) hc (inStep_ne_adrift (inStep_of_valid hvalid)) he hmid, happlied, ?_, ?_,
      hrest⟩
    · rw [State.withEngine_engine, hengine]
    · rw [State.withEngine_ctl, roled_ctl hchassis (by rw [hstraps]), hctl, ← admission_roster, ← hb]
      rfl
  refine ⟨fun hsent hother => ?another, fun x d hsent hp hd hown => ?own⟩
  case another =>
    obtain ⟨t, hexec, happlied, hengine, hctl, hrest⟩ := hexec (Or.inl ⟨hsent, hother⟩)
    refine ⟨t, hexec, happlied, hengine, ?_, hrest⟩
    rw [hctl, hsent]
    rfl
  case own =>
    obtain ⟨t, hexec, happlied, hengine, hctl, hrest⟩ := hexec (Or.inr ⟨x, hsent, hp⟩)
    refine ⟨t, hexec, happlied, hengine, ?_, hrest⟩
    rw [hctl, ← settled_roster d r, Ctl.reported, Ctl.afterFrame, hsent, hd, Spec.role, if_pos hown, hb]
    rfl

/-! ### SNAP (R91, R114) -/

theorem applyFrame_snap {s : State} {f : Frame} {index : BitVec 6} {content : BitVec 90} (hb : f.body = .snap index content) :
    s.applyFrame f = s.trackAdmission (.snap index content) := by
  have hcopy : s.chassis.apply f.sender (.snap index content) = s.chassis := apply_other _ _ _ rfl
  rw [State.applyFrame, hb, hcopy, State.withChassis_same, decide_eq_false (not_not.2 rfl)]
  rfl

theorem trackAdmission_last {s : State} {a : Admission} {index : BitVec 6} (content : BitVec 90) (h : s.ctl.admission = some a)
    (hi : index = a.total - 1) : s.trackAdmission (.snap index content)
      = ((s.withChassis (s.chassis.setMemberState a.addr .full)).withCtl { s.ctl with admission := none }).setCause
          .rosterChange := by
  unfold State.trackAdmission
  rw [h]
  exact if_pos hi

theorem trackAdmission_notLast {s : State} {index : BitVec 6} (content : BitVec 90)
    (h : ∀ a, s.ctl.admission = some a → index ≠ a.total - 1) : s.trackAdmission (.snap index content) = s := by
  unfold State.trackAdmission
  cases ha : s.ctl.admission with
  | none => rfl
  | some a => exact if_neg (h a ha)

theorem setMemberState_record (c : Chassis) (a : Addr) (st : MemberState) (b : Addr) : (c.setMemberState a st).record b
    = if b = a then (c.record b).map (fun m => { m with state := st }) else c.record b := by
  rw [Chassis.setMemberState, record_recordsOf]

theorem setMemberState_map (c : Chassis) (a : Addr) (st : MemberState) : (c.setMemberState a st).map = c.map := by
  refine set_ext fun b => ?_
  rw [setHas_map, setHas_map, setMemberState_record]
  split
  · rw [Option.isSome_map]
  · rfl

theorem settled_snap_last {d : Duties} {q : Sequencer} (index : BitVec 6) (content : BitVec 90) (hd : d.sequencer = some q)
    (hq : q.next + 1 = q.total) : d.settled (.snap index content) = { d with sequencer := none, retries := 0 } := by
  unfold Duties.settled
  rw [hd]
  simp only [hq, if_true]

theorem settled_snap_more {d : Duties} {q : Sequencer} (index : BitVec 6) (content : BitVec 90) (hd : d.sequencer = some q)
    (hq : q.next + 1 ≠ q.total) :
    d.settled (.snap index content) = { d with sequencer := some { q with next := q.next + 1 }, retries := 0 } := by
  unfold Duties.settled
  rw [hd]
  simp only [hq, if_false]

/-- A settled SNAP that is not the last of the admission in progress: the report of the sender, and the echo counted. -/
theorem snapNotLast_echoed {s : State} {tail : Tail} {f : Frame} {index : BitVec 6} {content : BitVec 90}
    (h : Spec.agreed s tail) (hf : Spec.heard s f) (hst : s.ctl.station = .member ∨ s.ctl.station = .leaving)
    (hsent : Spec.rosterSent s f) (hb : f.body = .snap index content) (hsender : s.chassis.record f.sender ≠ none)
    (hecho : setWithin s.chassis.map tail.echo = true) (hlast : ∀ a, s.ctl.admission = some a → index ≠ a.total - 1) :
    s.lossCause tail = none ∧ s.echoed tail
      = (s.withCtl (s.ctl.reported s.engine.sent f.body)).withChassis (Spec.heardAll s.chassis) :=
  settled_echoed h hf hst (rosterSent_notDuplicate hsent) hsender (by rw [hb]; nofun) (by rw [hb]; nofun) hecho
    (by rw [applyFrame_snap hb, trackAdmission_notLast content hlast, reportIfOwn_roster s.chassis (rosterSent_path hsent)])
    (inStep_of_valid hst) rfl

/-- R114: the last SNAP of the admission in progress makes the admitted station FULL. -/
theorem snapLast_echoed {s : State} {tail : Tail} {f : Frame} {index : BitVec 6} {content : BitVec 90} {a : Admission}
    (h : Spec.agreed s tail) (hf : Spec.heard s f) (hst : s.ctl.station = .member ∨ s.ctl.station = .leaving)
    (hsent : Spec.rosterSent s f) (hb : f.body = .snap index content) (hsender : s.chassis.record f.sender ≠ none)
    (hecho : setWithin s.chassis.map tail.echo = true) (ha : s.ctl.admission = some a) (hlast : index = a.total - 1) :
    s.lossCause tail = none ∧ s.echoed tail = ((s.setCause .rosterChange).withCtl
      { s.ctl.reported s.engine.sent f.body with admission := none }).withChassis
        (Spec.heardAll (s.chassis.setMemberState a.addr .full)) := by
  have hmap := setMemberState_map s.chassis a.addr .full
  have hframe := (applyFrame_snap hb).trans (trackAdmission_last content ha hlast)
  generalize s.chassis.setMemberState a.addr .full = d at *
  have hpath := rosterSent_path hsent
  have hu := (congrArg (State.reportIfOwn f s.chassis) hframe).trans (reportIfOwn_roster s.chassis hpath)
  obtain ⟨hc, he⟩ := settled_echoed h hf hst (rosterSent_notDuplicate hsent) hsender (by rw [hb]; nofun)
    (by rw [hb]; nofun) hecho hu (inStep_of_valid hst) hmap
  exact ⟨hc, he⟩

/-- Settles O35. -/
theorem settledSnapAtAMember : Obligations.SettledSnapAtAMember := by
  intro s tail f index content c h hf hst hb hsender hecho hsent
  have hvalid : s.ctl.station = .member ∨ s.ctl.station = .leaving := hst.imp_right fun hl => hl.1
  have hne := inStep_ne_adrift (inStep_of_valid hvalid)
  refine ⟨fun hlast hcopy => ?notLast, fun a ha hlast hcopy => ?last, fun d q hd => ⟨fun hq => ?done, fun hq => ?more⟩⟩
  case notLast =>
    obtain ⟨hc, he⟩ := snapNotLast_echoed h hf hvalid hsent hb hsender hecho hlast
    rw [← hcopy] at he
    exact exec_frameEnd_stays (agreed_complete h) hc hne he hst
  case last =>
    obtain ⟨hc, he⟩ := snapLast_echoed h hf hvalid hsent hb hsender hecho ha hlast
    rw [← hcopy] at he
    exact exec_frameEnd_stays (agreed_complete h) hc hne he hst
  case done =>
    rw [hb]
    exact settled_snap_last index content hd hq
  case more =>
    rw [hb]
    exact settled_snap_more index content hd hq

end Sys2Proof.Machine
end

section
/-! PROOFS. Removal by a ROSTER, and leaving where no roster station is left (R96, R98, R103, R117, R119). -/

namespace Sys2Proof.Machine

/-! ### Removal by a ROSTER -/

/-- The station has left the chassis by a ROSTER: what is left of it at the end of the frame. -/
theorem detached_of_removed (s : State) (cause : Removal) (autoJoin : Bool) :
    Spec.detached s (((s.toDetached cause autoJoin).setCause .rosterChange).withEngine
      (Spec.ended ((s.toDetached cause autoJoin).setCause .rosterChange).engine)) cause autoJoin 0x08 := by
  refine ⟨_, abandoned_setCause _ (toDetached_abandoned cause autoJoin s), rfl, toDetached_ctl cause autoJoin s, ?_⟩
  rw [State.setCause_causes, toDetached_causes]
  rfl

theorem toDetached_station (cause : Removal) (autoJoin : Bool) (s : State) :
    (s.toDetached cause autoJoin).ctl.station = .detached := by
  rw [toDetached_ctl]
  rfl

theorem toDetached_invalid (cause : Removal) (autoJoin : Bool) (s : State) :
    (s.toDetached cause autoJoin).copyValid = false := (toDetached_abandoned cause autoJoin s).2.1

/-- A MEMBER or LEAVING station that a settled ROSTER leaves out is removed, with no echo counted. -/
theorem removedBy_echoed {s : State} {tail : Tail} {f : Frame} {r : RosterBody} (h : Spec.agreed s tail)
    (hf : Spec.heard s f) (hst : s.ctl.station = .member ∨ s.ctl.station = .leaving) (hother : f.sender ≠ s.straps.addr)
    (hb : f.body = .roster r) (hsender : s.chassis.record f.sender ≠ none) (hecho : setWithin r.members tail.echo = true)
    (hself : setHas r.members s.straps.addr = false) : s.lossCause tail = none ∧ s.echoed tail = s.removedBy r := by
  have hs := inStep_of_valid hst
  have hsettles := settles_of_member h hs (by rw [hb]; nofun) hsender (by rwa [expecting_of_roster hb])
  have hright : s.wrongGeneration f = false := by
    rw [← Bool.not_eq_true, wrongGeneration_iff hb, hself]
    exact fun hwrong => Bool.false_ne_true hwrong.1
  refine ⟨lossCause_of_settled hs (agreed_tail h) hf (Or.inl hother) hright, echoed_of_uncounted ?_
    (Or.inr (Or.inl (counts_of_settledRoster hf hb hsettles)))⟩
  rw [verdict_of_settled hf hsettles, settleFrame_of_valid f hst, settleAtMember_removed hb hself]

theorem settles_of_adrift {s : State} {tail : Tail} {f : Frame} {r : RosterBody} (h : Spec.agreed s tail)
    (hst : s.ctl.station = .adrift) (hb : f.body = .roster r) (hecho : setWithin r.members tail.echo = true) :
    s.settles tail f = true := by
  rw [State.settles, agreed_tail h, (judges_of_adrift f hst).2 ⟨r, hb⟩, expecting_of_roster hb, hecho]
  rfl

theorem settleFrame_of_adrift_removed {s : State} {f : Frame} {r : RosterBody} (h : s.ctl.station = .adrift)
    (hb : f.body = .roster r) (hself : setHas r.members s.straps.addr = false) : s.settleFrame f = s.adriftRemovedBy r := by
  rw [State.settleFrame, h]
  dsimp only
  rw [hb]
  exact if_neg (by rw [State.self, hself]; exact Bool.false_ne_true)

theorem countAdrift_of_left {t : State} (was : Bool) (h : t.ctl.station ≠ .adrift) : t.countAdrift was = t := by
  rw [State.countAdrift, decide_eq_false h, Bool.and_false, if_neg Bool.false_ne_true]

theorem exec_frameEnd_adriftRemoved {s : State} {tail : Tail} {f : Frame} {r : RosterBody} (h : Spec.agreed s tail)
    (hf : Spec.heard s f) (hst : s.ctl.station = .adrift) (hb : f.body = .roster r)
    (hecho : setWithin r.members tail.echo = true) (hself : setHas r.members s.straps.addr = false) :
    exec (.frameEnd tail) s = .next ((s.adriftRemovedBy r).withEngine (Spec.ended (s.adriftRemovedBy r).engine)) := by
  have hverdict : s.verdict tail = s.adriftRemovedBy r := by
    rw [verdict_of_settled hf (settles_of_adrift h hst hb hecho), settleFrame_of_adrift_removed hst hb hself]
  have hleft : (s.adriftRemovedBy r).ctl.station ≠ .adrift := by
    rw [State.adriftRemovedBy, State.setCause_ctl, toDetached_station]
    nofun
  rw [exec_frameEnd_outsider (agreed_complete h) (by rw [hst]; rfl) hverdict (toDetached_invalid _ _ _),
    countAdrift_of_left _ hleft]

/-! ### No roster station left (R117) -/

/-- R117: a complete frame that leaves a LEAVING station as `mid`. -/
theorem noneLeft_of_inStep {s mid : State} {tail : Tail} (h : Spec.agreed s tail) (hs : s.ctl.station.inStep = true)
    (he : s.lossCause tail = none ∧ s.echoed tail = mid) (hl : mid.ctl.station = .leaving)
    (hnone : mid.chassis.rosterStation = none) : Spec.noneLeft s mid tail :=
  noneLeft_of_echoed (agreed_complete h) he.1 (inStep_ne_adrift hs) he.2 hl hnone

theorem noneLeft_of_noticeOfAnother {s : State} {tail : Tail} {f : Frame} {n : Notice} (h : Spec.agreed s tail)
    (hf : Spec.heard s f) (hsent : s.engine.sent = none) (hst : s.ctl.station = .leaving) (hb : f.body = .notice n)
    (hother : f.sender ≠ s.straps.addr) (hsender : s.chassis.record f.sender ≠ none)
    (hecho : setWithin s.chassis.map tail.echo = true)
    (hnone : (Spec.heardAll (s.chassis.apply f.sender f.body)).rosterStation = none) : ∃ mid, Spec.noneLeft s mid tail
      ∧ Spec.applied s mid (Spec.heardAll (s.chassis.apply f.sender f.body)) (if n = .leave then 0x08 else 0)
      ∧ mid.ctl = { s.ctl with admission := mid.ctl.admission, duties := mid.ctl.duties }
      ∧ mid.engine = s.engine ∧ mid.queue = s.queue ∧ mid.log = s.log ∧ mid.port = s.port := by
  obtain ⟨hc, mid, he, happlied, hctl, hrest⟩ :=
    noticeOfAnother_echoed h hf hsent (Or.inr hst) hb hother hsender hecho
  refine ⟨mid, noneLeft_of_inStep h (by rw [hst]; rfl) ⟨hc, he⟩ ?_ ?_, happlied, by rw [hctl]; rfl, hrest⟩
  · rw [hctl]
    exact hst
  · rw [happlied.1]
    exact hnone

theorem noneLeft_of_ownNotice {s : State} {tail : Tail} {f : Frame} {h : Head} {x : Sent} (hagreed : Spec.agreed s tail)
    (hf : Spec.heard s f) (hsent : s.engine.sent = some x) (hp : x.path = .queue) (hhead : s.queue.inFlight = some h)
    (hst : s.ctl.station = .leaving ∨ (s.ctl.station = .member ∧ h.item.notice = .leave))
    (hb : f.body = .notice h.item.notice) (hsender : s.chassis.record f.sender ≠ none)
    (hecho : setWithin s.chassis.map tail.echo = true)
    (hnone : (Spec.heardAll (s.chassis.apply f.sender f.body)).rosterStation = none) : ∃ mid, Spec.noneLeft s mid tail
      ∧ Spec.applied s mid (Spec.heardAll (s.chassis.apply f.sender f.body)) (Spec.ownCause h.item.notice)
      ∧ mid.ctl = { s.ctl with
          station := .leaving
          joinTimer := mid.ctl.joinTimer
          admission := mid.ctl.admission
          duties := mid.ctl.duties }
      ∧ mid.engine = s.engine ∧ Spec.headSettled s mid h := by
  have hvalid : s.ctl.station = .member ∨ s.ctl.station = .leaving := hst.symm.imp_left And.left
  obtain ⟨hc, mid, he, happlied, hctl, hrest⟩ := noticeOfOwn_echoed hagreed hf hsent hp hhead hvalid hb hsender hecho
  have hleaving : mid.ctl.station = .leaving := by
    rw [hctl]
    by_cases hl : h.item.notice = .leave
    · exact if_pos hl
    · exact (if_neg hl).trans (hst.resolve_right fun hm => hl hm.2)
  refine ⟨mid, noneLeft_of_inStep hagreed (inStep_of_valid hvalid) ⟨hc, he⟩ hleaving ?_, happlied, ?_, hrest⟩
  · rw [happlied.1]
    exact hnone
  · rw [← hleaving, hctl]
    rfl

theorem noneLeft_of_rosterHeld {s : State} {tail : Tail} {f : Frame} {r : RosterBody} (h : Spec.agreed s tail)
    (hf : Spec.heard s f) (hst : s.ctl.station = .leaving) (hsent : Spec.rosterSent s f) (hb : f.body = .roster r)
    (hsender : s.chassis.record f.sender ≠ none) (hecho : setWithin r.members tail.echo = true)
    (hself : setHas r.members s.straps.addr = true) (hgen : r.generation = s.chassis.generation + 1)
    (hnone : (s.chassis.apply f.sender f.body).rosterStation = none) : ∃ mid, Spec.noneLeft s mid tail
      ∧ Spec.applied s mid (s.chassis.apply f.sender f.body) 0x08
      ∧ mid.ctl = { s.ctl with admission := mid.ctl.admission, duties := mid.ctl.duties }
      ∧ mid.engine = { s.engine with foreign := 0 } ∧ mid.queue = s.queue ∧ mid.log = s.log ∧ mid.port = s.port := by
  obtain ⟨hc, mid, he, happlied, hctl, hrest⟩ :=
    rosterHeld_echoed h hf (Or.inr hst) hsent hb hsender hecho hself hgen
  refine ⟨mid, noneLeft_of_inStep h (by rw [hst]; rfl) ⟨hc, he⟩ ?_ ?_, happlied, by rw [hctl]; rfl, hrest⟩
  · rw [hctl]
    exact hst
  · rw [happlied.1]
    exact hnone

/-- The station's own frame, read good, that does not settle: the echo is counted over what its report left. -/
theorem noneLeft_of_ownUnsettled {s t : State} {tail : Tail} {f : Frame} {x : Sent} (h : Spec.agreed s tail)
    (hf : Spec.heard s f) (hst : s.ctl.station = .leaving) (hsent : s.engine.sent = some x)
    (hsender : s.chassis.record f.sender ≠ none) (hecho : setWithin (s.expecting f) tail.echo = false)
    (hreport : s.reportUnsettled tail = t) (hstation : t.ctl.station = s.ctl.station) (hchassis : t.chassis = s.chassis)
    (hnone : (Spec.counted s.chassis tail.echo).rosterStation = none) :
    Spec.noneLeft s (t.withChassis (Spec.counted s.chassis tail.echo)) tail := by
  have hs : s.ctl.station.inStep = true := by rw [hst]; rfl
  exact noneLeft_of_inStep h hs (own_echoed h hf hsent hs hsender hecho hreport hstation hchassis) (hstation.trans hst) hnone

/-- Settles O36. -/
theorem removalFromTheChassis : Obligations.RemovalFromTheChassis := by
  refine ⟨fun s tail f r h hf hsent hb hother hecho hself => ⟨fun hst hsender => ?member, fun hst => ?adrift⟩,
    ⟨?another, ?own⟩, fun s tail c h hst hnone => ⟨fun f r hf hb hsent hsender hecho hself hgen hcopy => ?roster,
      fun f index content hf hb hsent hsender hecho => ⟨fun hlast hcopy => ?snap, fun a ha hlast hcopy => ?snapLast⟩, ?unsettled,
      fun f hforeign hcopy => ?foreign⟩⟩
  case member =>
    obtain ⟨hc, he⟩ := removedBy_echoed h hf hst hother hb hsender hecho hself
    exact ⟨_, exec_frameEnd_invalid (agreed_complete h) hc (inStep_ne_adrift (inStep_of_valid hst)) he
      (toDetached_invalid _ _ _), detached_of_removed _ _ _⟩
  case adrift => exact ⟨_, exec_frameEnd_adriftRemoved h hf hst hb hecho hself, detached_of_removed _ _ _⟩
  case another =>
    rintro s tail f n c h hf hst hsent hother hb hsender hecho rfl hnone
    exact noneLeft_of_noticeOfAnother h hf hsent hst hb hother hsender hecho hnone
  case own =>
    rintro s tail f h x c hagreed hf hsent hp hhead hst hb - hsender hecho rfl hnone
    exact noneLeft_of_ownNotice hagreed hf hsent hp hhead hst hb hsender hecho hnone
  all_goals have hs : s.ctl.station.inStep = true := by rw [hst]; rfl
  case roster =>
    subst hcopy
    exact noneLeft_of_rosterHeld h hf hst hsent hb hsender hecho hself hgen hnone
  case snap =>
    have he := snapNotLast_echoed h hf (Or.inr hst) hsent hb hsender hecho hlast
    rw [← hcopy] at he
    exact ⟨_, noneLeft_of_inStep h hs he hst hnone⟩
  case snapLast =>
    have he := snapLast_echoed h hf (Or.inr hst) hsent hb hsender hecho ha hlast
    rw [← hcopy] at he
    exact ⟨_, noneLeft_of_inStep h hs he hst hnone⟩
  case unsettled =>
    rintro rfl
    refine ⟨fun f hno => noneLeft_of_inStep h hs (unsettled_echoed hs (agreed_tail h) hno) hst hnone,
      fun hbad => noneLeft_of_inStep h hs (badBody_echoed hs (agreed_tail h) hbad) hst hnone,
      fun f x hf hsent _ hsender => ⟨fun n y hp hb hecho hy => ?queue, fun hp hroster hsnap hb => ?roster⟩⟩
    case queue =>
      obtain ⟨haging, -⟩ := h.1.1.2.1 y hy
      exact noneLeft_of_ownUnsettled h hf hst hsent hsender (by rwa [expecting_of_other (by rw [hb]; nofun)])
        (reportUnsettled_of_queue tail hsent hp hy haging) rfl rfl hnone
    case roster =>
      have hecho : setWithin (s.expecting f) tail.echo = false := by
        rcases hb with ⟨r, hb⟩ | ⟨index, content, hb⟩
        · rw [expecting_of_roster hb, hroster r hb]
        · rw [expecting_of_other (by rw [hb]; nofun), hsnap index content hb]
      have hleft := noneLeft_of_ownUnsettled h hf hst hsent hsender hecho (reportUnsettled_of_roster tail hsent hp hf) rfl rfl
        hnone
      exact ⟨_, hleft⟩
  case foreign =>
    exact noneLeft_of_inStep h hs (foreignFrame_echoed hs (agreed_tail h) hforeign) hst (by rw [hcopy, hnone])

end Sys2Proof.Machine
end

section
/-! PROOFS. A joiner: admission to TRANSFER, its SNAP frames, and the end of the transfer (R96, R111 to R115). -/

namespace Sys2Proof.Machine

/-! ### Admission (R96, R107, R111) -/

/-- R94: a well-formed ROSTER that admits a station holds it as a new member. -/
theorem wellFormed_admitted {r : RosterBody} {a : Addr} (h : r.wellFormed = true) (ha : r.admitted = some a) :
    setHas r.members a = true ∧ setHas r.newMembers a = true := by
  simp only [RosterBody.wellFormed, ha, Bool.and_eq_true] at h
  obtain ⟨-, hmember, -⟩ := h
  exact hmember

theorem adopt_record (c : Chassis) (r : RosterBody) (a : Addr) : (c.adopt r).record a = r.recordFor a :=
  record_of_records (by simp only [Chassis.adopt]) a

theorem settleFrame_of_joining {s : State} {f : Frame} {r : RosterBody} (h : s.ctl.station = .joining)
    (hb : f.body = .roster r) : s.settleFrame f = s.toTransfer r := by
  rw [State.settleFrame, h]
  dsimp only
  rw [hb]

theorem exec_frameEnd_admitted {s : State} {tail : Tail} {f : Frame} {r : RosterBody} (h : Spec.agreed s tail)
    (hf : Spec.heard s f) (hst : s.ctl.station = .joining) (hb : f.body = .roster r)
    (hadmitted : r.admitted = some s.straps.addr) (hecho : setWithin r.members tail.echo = true) :
    exec (.frameEnd tail) s = .next ((s.toTransfer r).withEngine (Spec.ended { s.engine with foreign := 0 })) := by
  have hsettles : s.settles tail f = true := by
    rw [State.settles, agreed_tail h, judges_of_joining f hst, (admits_iff _ s.self).2 ⟨r, hb, hadmitted⟩, expecting_of_roster hb,
      hecho]
    rfl
  have hverdict : s.verdict tail = s.toTransfer r := by
    rw [verdict_of_settled hf hsettles, settleFrame_of_joining hst hb]
  rw [exec_frameEnd_outsider (agreed_complete h) (by rw [hst]; rfl) hverdict rfl, countAdrift_of_other (by simp [hst])]
  rfl

/-- Settles O45. -/
theorem admittedJoinerEntersTransfer : Obligations.AdmittedJoinerEntersTransfer := by
  intro s tail f r h hf hsent hst hb hadmitted hecho
  have hwell : r.wellFormed = true := goodBody_roster ((goodBody_iff s f).2 hf) hb
  have hrecord (a : Addr) : (Chassis.empty.adopt r).record a
      = if setHas r.members a then some ⟨if setHas r.newMembers a then .new else .full, 0⟩ else none := adopt_record _ r a
  obtain ⟨hmember, hnew⟩ := wellFormed_admitted hwell hadmitted
  refine ⟨_, snapTotal r.withFirst r.entries, exec_frameEnd_admitted h hf hst hb hadmitted hecho,
    snapTotal_toNat _ _ (wellFormed_entries hwell), rfl, rfl, rfl, rfl, hrecord, ?_, rfl, rfl, rfl, rfl, rfl, rfl, rfl, rfl, rfl,
    rfl, rfl, rfl, rfl, rfl, rfl⟩
  exact (hrecord _).trans (by rw [hmember, hnew, if_pos rfl, if_pos rfl])

/-! ### What settles at a joiner in TRANSFER (R112, R115) -/

theorem any_same_eq_false_iff (l : List Entry) (e : Entry) :
    ¬l.any e.same = true ↔ ∀ y ∈ l, ¬(y.origin = e.origin ∧ y.source = e.source) := by
  simp only [List.any_eq_true, not_exists, not_and, Entry.same, Bool.and_eq_true, decide_eq_true_eq]

theorem takeSnap_iff (c d : Chassis) (x : Transfer) (index : BitVec 6) (content : BitVec 90) :
    c.takeSnap x index content = some d ↔ Spec.snapTaken c d x index content := by
  unfold Chassis.takeSnap Spec.snapTaken
  by_cases hzero : index = 0
  · rw [if_pos hzero, or_iff_left (by rintro (⟨hone, -⟩ | ⟨hne, -⟩) <;> bv_omega), Option.ite_none_right_eq_some,
      Option.some.injEq, eq_comm (a := d)]
    exact ⟨fun h => ⟨hzero, h⟩, And.right⟩
  · rw [if_neg hzero, or_iff_right fun h => hzero h.1]
    by_cases hfirst : index = 1 ∧ x.withFirst = true
    · rw [if_pos hfirst, or_iff_left fun h => h.2.1 hfirst]
      obtain ⟨hone, hwith⟩ := hfirst
      cases readFirst content <;> simp [hone, hwith, eq_comm (a := d)]
    · rw [if_neg hfirst, or_iff_right fun h => hfirst ⟨h.1, h.2.1⟩]
      cases readEntry content with
      | none => simp
      | some e =>
        dsimp only
        rw [Option.ite_none_left_eq_some, any_same_eq_false_iff, Option.some.injEq, eq_comm (b := d)]
        exact ⟨fun h => ⟨hzero, hfirst, e, rfl, h⟩, fun ⟨_, _, e', he, h⟩ => by
          injection he with he
          subst he
          exact h⟩

theorem snapTaken_record {c d : Chassis} {x : Transfer} {index : BitVec 6} {content : BitVec 90}
    (h : Spec.snapTaken c d x index content) (a : Addr) : d.record a = c.record a := by
  rcases h with ⟨-, -, rfl⟩ | ⟨-, -, f, -, rfl⟩ | ⟨-, -, e, -, -, rfl⟩ <;> rfl

theorem settleFrame_of_transfer {s : State} (f : Frame) (h : s.ctl.station = .transfer) :
    s.settleFrame f = s.settleAtTransfer f := by
  rw [State.settleFrame, h]

/-- A frame that settles at a joiner in TRANSFER. -/
theorem transfer_settled {s : State} {tail : Tail} {f : Frame} (h : Spec.agreed s tail) (hf : Spec.heard s f)
    (hst : s.ctl.station = .transfer) (hother : f.sender ≠ s.straps.addr) (hsender : s.chassis.record f.sender ≠ none)
    (hbody : f.body ≠ .join) (hecho : setWithin (s.expecting f) tail.echo = true) (hright : s.wrongGeneration f = false) :
    s.lossCause tail = none ∧ s.verdict tail = s.settleAtTransfer f := by
  have hs : s.ctl.station.inStep = true := by rw [hst]; rfl
  refine ⟨lossCause_of_settled hs (agreed_tail h) hf (Or.inl hother) hright, ?_⟩
  rw [verdict_of_settled hf (settles_of_member h hs hbody hsender hecho), settleFrame_of_transfer f hst]

theorem toAdrift_station (code : Word) (s : State) : (s.toAdrift code).ctl.station = .adrift := by
  obtain ⟨u, hu, -, hst, -⟩ := goingAdrift s code
  rw [hu, (assertSource_local _ _ _).ctl, hst]

/-- R112, R115: a settled frame that voids the transfer. -/
theorem exec_frameEnd_voided {s : State} {tail : Tail} {f : Frame} (h : Spec.agreed s tail) (hst : s.ctl.station = .transfer)
    (hv : s.lossCause tail = none ∧ s.verdict tail = s.settleAtTransfer f)
    (hvoid : s.settleAtTransfer f = s.toAdrift 0x00000016) : exec (.frameEnd tail) s
      = .next ((s.toAdrift 0x00000016).withEngine (Spec.ended { s.engine with foreign := 0 })) := by
  have hadrift := toAdrift_station 0x00000016 s
  have he : s.echoed tail = s.toAdrift 0x00000016 :=
    echoed_of_uncounted (hv.2.trans hvoid) (Or.inr (Or.inr (by rw [hadrift]; rfl)))
  rw [exec_frameEnd_invalid (agreed_complete h) hv.1 (by rw [hst]; nofun) he
    (copyValid_false_of (by rw [hadrift]; nofun) (by rw [hadrift]; nofun)), toAdrift_engine]

theorem settleAtTransfer_snap {s : State} {f : Frame} {x : Transfer} {index : BitVec 6} {content : BitVec 90}
    (hb : f.body = .snap index content) (hx : s.ctl.transfer = some x) : s.settleAtTransfer f
      = if index = x.next then
          (s.chassis.takeSnap x index content).elim (s.toAdrift 0x00000016) (fun d =>
            if x.next + 1 = x.total then ((s.withChassis d).withCtl
              { s.ctl with transfer := some { x with next := x.next + 1 }, joinTimer := some s.items.joinWait }).completeTransfer
            else (s.withChassis d).withCtl
              { s.ctl with transfer := some { x with next := x.next + 1 }, joinTimer := some s.items.joinWait })
        else s.toAdrift 0x00000016 := by
  rw [State.settleAtTransfer, hb]
  dsimp only
  rw [State.joinerSnap, hx]
  dsimp only
  cases s.chassis.takeSnap x index content <;> rfl

/-- A SNAP that settles leaves the joiner as `u` in step: its echo is counted. -/
theorem snapSettles_echoed {s u : State} {tail : Tail} {f : Frame} {x : Transfer} {index : BitVec 6} {content : BitVec 90}
    (h : Spec.snapSettles s tail f x index content) (hu : s.settleAtTransfer f = u) (hstation : u.ctl.station.inStep = true)
    (hrecord : u.chassis.map = s.chassis.map) :
    s.lossCause tail = none ∧ s.echoed tail = u.withChassis (Spec.heardAll u.chassis) := by
  obtain ⟨h, hf, -, hst, hb, hother, hsender, hecho, -⟩ := h
  have hnr : ∀ r, f.body ≠ .roster r := by rw [hb]; nofun
  have hs : s.ctl.station.inStep = true := by rw [hst]; rfl
  obtain ⟨hc, hv⟩ := transfer_settled h hf hst hother hsender (by rw [hb]; nofun) (by rwa [expecting_of_other hnr])
    (wrongGeneration_of_other hnr)
  refine ⟨hc, ?_⟩
  rw [echoed_of_counted (hv.trans hu) hs (counts_of_other tail hf (foreign_false_of_member hsender) hnr) hstation,
    countMisses_heardAll (by rwa [hrecord]) (record_ne_none_of_map hrecord hsender)]

theorem map_of_record {c d : Chassis} (h : ∀ a, d.record a = c.record a) : d.map = c.map :=
  set_ext fun a => by rw [setHas_map, setHas_map, h]

/-- Settles O47. -/
theorem joinerInTransfer : Obligations.JoinerInTransfer := by
  refine ⟨fun s tail f x index content h => ⟨fun d hi hmore hd => ?taken, fun hbad => ?void⟩,
    fun s tail f h hf hsent hst hother hsender => ⟨fun n hb hecho => ?notice, fun r hb hecho hgen => ?roster⟩⟩
  case taken =>
    have hu : s.settleAtTransfer f = (s.withChassis d).withCtl
        { s.ctl with transfer := some { x with next := x.next + 1 }, joinTimer := some s.items.joinWait } := by
      obtain ⟨-, -, -, -, hb, -, -, -, hx⟩ := h
      rw [settleAtTransfer_snap hb hx, if_pos hi, (takeSnap_iff _ _ _ _ _).2 hd, Option.elim_some, if_neg hmore]
    have hsettles := h
    obtain ⟨hagreed, -, -, hst, -⟩ := hsettles
    obtain ⟨hc, he⟩ := snapSettles_echoed h hu (by rw [State.withCtl_ctl, hst]; rfl) (map_of_record (snapTaken_record hd))
    exact exec_frameEnd_invalid (agreed_complete hagreed) hc (by rw [hst]; nofun) he
      (copyValid_false_of (by simp [hst]) (by simp [hst]))
  case void =>
    obtain ⟨hagreed, hf, -, hst, hb, hother, hsender, hecho, hx⟩ := h
    have hnr : ∀ r, f.body ≠ .roster r := by rw [hb]; nofun
    refine exec_frameEnd_voided hagreed hst (transfer_settled hagreed hf hst hother hsender (by rw [hb]; nofun)
      (by rwa [expecting_of_other hnr]) (wrongGeneration_of_other hnr)) ?_
    rw [settleAtTransfer_snap hb hx]
    split
    · next hi =>
      have hnone : s.chassis.takeSnap x index content = none := by
        rw [Option.eq_none_iff_forall_ne_some]
        exact fun d hd => hbad.elim (fun hne => hne hi) fun hno => hno d ((takeSnap_iff _ _ _ _ _).1 hd)
      rw [hnone, Option.elim_none]
    · rfl
  case notice =>
    have hnr : ∀ r, f.body ≠ .roster r := by rw [hb]; nofun
    exact exec_frameEnd_voided h hst (transfer_settled h hf hst hother hsender (by rw [hb]; nofun)
      (by rwa [expecting_of_other hnr]) (wrongGeneration_of_other hnr)) (by rw [State.settleAtTransfer, hb])
  case roster =>
    have hright : s.wrongGeneration f = false := by
      rw [← Bool.not_eq_true, wrongGeneration_iff hb]
      rintro ⟨hself, hwrong⟩
      exact hgen.elim (fun hno => Bool.false_ne_true (hno.symm.trans hself)) hwrong
    exact exec_frameEnd_voided h hst (transfer_settled h hf hst hother hsender (by rw [hb]; nofun)
      (by rwa [expecting_of_roster hb]) hright) (by rw [State.settleAtTransfer, hb])

/-! ### The end of the transfer (R113) -/

/-- The joiner with its last SNAP taken and its own record FULL, where it becomes MEMBER (R113). -/
def State.completing (d : Chassis) (x : Transfer) (s : State) : State :=
  ((s.withCtl { s.ctl with transfer := some x, joinTimer := some s.items.joinWait }).withChassis
    (d.setMemberState s.straps.addr .full)).setCauseIf d.first.isSome .chassisFirst

theorem completeTransfer_eq (s : State) (d : Chassis) (x : Transfer) :
    ((s.withChassis d).withCtl { s.ctl with transfer := some x, joinTimer := some s.items.joinWait }).completeTransfer
      = (s.completing d x).toMember := rfl

/-- The completing station is `s` but for copy, Roster Controller and alert causes. -/
theorem completing_frame (s : State) (d : Chassis) (x : Transfer) : s.completing d x = { s with
    engine := (s.completing d x).engine, chassis := (s.completing d x).chassis, ctl := (s.completing d x).ctl
    alerts := (s.completing d x).alerts } := by
  rw [State.completing, State.setCauseIf_eq]
  rfl

theorem completing_rest (s : State) (d : Chassis) (x : Transfer) :
    (s.completing d x).chassis = d.setMemberState s.straps.addr .full
      ∧ (s.completing d x).ctl = { s.ctl with transfer := some x, joinTimer := some s.items.joinWait }
      ∧ (s.completing d x).engine = s.engine ∧ (s.completing d x).straps = s.straps := by
  rw [State.completing, State.setCauseIf_chassis, State.setCauseIf_ctl, State.setCauseIf_engine, State.setCauseIf_straps]
  exact ⟨rfl, rfl, rfl, rfl⟩

theorem completing_causes (s : State) (d : Chassis) (x : Transfer) : (s.completing d x).alerts.pending
    = s.alerts.pending ||| (if d.first = none then 0 else 0x20) := by
  rw [State.completing, State.setCauseIf_causes]
  cases d.first <;> rfl

theorem role_role_none (c e : Chassis) (self : Addr) : Spec.role c self (Spec.role e self none) = Spec.role c self none := by
  unfold Spec.role
  by_cases he : e.rosterStation = some self
  · rw [if_pos he, Option.getD_some, Option.getD_none]
  · rw [if_neg he]

theorem toMember_ctl (s : State) : s.toMember.ctl = { s.ctl with
    station := .member
    joinTimer := none
    transfer := none
    cause := .none
    duties := Spec.role s.chassis.leveled s.straps.addr s.ctl.duties } := by
  rw [toMember_eq, (requeueUnsent_local _).ctl, entered_eq, State.withCtl_ctl]

theorem toMember_engine (s : State) : s.toMember.engine = s.engine := by
  rw [toMember_eq, (requeueUnsent_local _).engine]
  obtain ⟨-, -, -, -, -, -, hengine, -⟩ := entered_facts s
  exact hengine

/-- What a station holds that became MEMBER, with another copy of the same level. -/
theorem becameMember_withChassis {s t u : State} {c d : Chassis} {causes : Byte} (h : Spec.becameMember s t u c causes)
    (hlevel : d.level = c.level) (e : Engine) (k : Ctl) :
    Spec.becameMember s (((t.withChassis d).withCtl k).withEngine e) u d causes := by
  obtain ⟨-, hrest⟩ := h
  refine ⟨rfl, ?_⟩
  rw [hlevel]
  exact hrest

theorem heardAll_leveled (c : Chassis) :
    Spec.heardAll c.leveled = { Spec.heardAll c with level := deriveLevel c.halt c.table } := by
  simp only [Spec.heardAll, Chassis.leveled, Chassis.record]

/-- Settles O46. -/
theorem transferCompletes : Obligations.TransferCompletes := by
  rintro s tail f x index content d c h hlegal hi hlast hd hcopy
  have hu : s.settleAtTransfer f = (s.completing d { x with next := x.next + 1 }).toMember := by
    obtain ⟨-, -, -, -, hb, -, -, -, hx⟩ := h
    rw [settleAtTransfer_snap hb hx, if_pos hi, (takeSnap_iff _ _ _ _ _).2 hd, Option.elim_some, if_pos hlast,
      completeTransfer_eq]
  have hmember := toMember_becameMember (completing_frame s d { x with next := x.next + 1 })
    (by rw [State.completing, State.setCauseIf_mask]; rfl) (completing_causes s d _)
  have hctl := toMember_ctl (s.completing d { x with next := x.next + 1 })
  have hengine := toMember_engine (s.completing d { x with next := x.next + 1 })
  obtain ⟨hchassis, hfrom, hkept, hstraps⟩ := completing_rest s d { x with next := x.next + 1 }
  generalize s.completing d { x with next := x.next + 1 } = m at *
  have hleveled : m.toMember.chassis = m.chassis.leveled := hmember.1
  have hmap : m.toMember.chassis.map = s.chassis.map := by
    rw [hleveled, hchassis]
    exact (setMemberState_map d _ _).trans (map_of_record (snapTaken_record hd))
  obtain ⟨hc, he⟩ := snapSettles_echoed h hu (by rw [hctl]; rfl) hmap
  have hheard : Spec.heardAll m.toMember.chassis = c := by
    rw [hleveled, hchassis, heardAll_leveled, hcopy, setMemberState_halt, setMemberState_table]
  rw [hheard] at he
  have hself : (m.toMember.withChassis c).straps.addr = s.straps.addr := by
    obtain ⟨-, -, -, -, -, -, -, -, -, -, -, -, -, -, -, hstraps', -⟩ := hmember
    rw [State.withChassis_straps, hstraps']
  have hlevel : c.level = m.chassis.leveled.level := by
    rw [← hheard, hleveled, heardAll_level]
  obtain ⟨hagreed, -, -, hst, -⟩ := h
  have hduties := duties_of_legal hlegal (copyValid_false_of (by simp [hst]) (by simp [hst]))
  refine ⟨_, m.entered, exec_frameEnd_stays (agreed_complete hagreed) hc (by rw [hst]; nofun) he (Or.inl ?_),
    becameMember_withChassis hmember hlevel _ _, ?_, ?_⟩
  · rw [State.withChassis_ctl, hctl]
  · rw [State.withEngine_ctl, roled_ctl rfl hself, State.withChassis_ctl, hctl, hstraps, hfrom]
    dsimp only
    rw [hduties, role_role_none, State.withChassis_chassis]
  · rw [State.withEngine_engine, State.withChassis_engine, hengine, hkept]

end Sys2Proof.Machine
end

section
/-! PROOFS. Fault lines and their trackers (R122, R123, R124). -/

namespace Sys2Proof.Machine

theorem setLevel_getLsbD (fin : BitVec 24) (n k : Fin 24) (high : Bool) :
    (setLevel fin n high).getLsbD k.val = if k = n then high else fin.getLsbD k.val := by
  have hbit : (BitVec.twoPow 24 n.val).getLsbD k.val = decide (k = n) := by
    simp [Fin.ext_iff, eq_comm]
  unfold setLevel
  cases high with
  | true =>
    rw [if_pos rfl, BitVec.getLsbD_or, hbit]
    by_cases hk : k = n <;> simp [hk]
  | false =>
    rw [if_neg Bool.false_ne_true, BitVec.getLsbD_and, BitVec.getLsbD_not, hbit]
    by_cases hk : k = n <;> simp [hk]

/-- The levels of the lines are told by each of them. -/
theorem levels_ext {x y : BitVec 24} (h : ∀ k : Fin 24, x.getLsbD k.val = y.getLsbD k.val) : x = y :=
  BitVec.eq_of_getLsbD_eq fun i hi => h ⟨i, hi⟩

/-- The line's level has gone to the other one. -/
theorem setLevel_toggled {m : Monitor} {n : Fin 24} {fin : BitVec 24} (high : Bool) (hhigh : m.fin.getLsbD n.val ≠ high)
    (hfin : ∀ k : Fin 24, fin.getLsbD k.val = if k = n then !m.fin.getLsbD n.val else m.fin.getLsbD k.val) :
    setLevel m.fin n high = fin := by
  refine levels_ext fun k => ?_
  rw [setLevel_getLsbD, hfin, Bool.eq_not.2 hhigh, Bool.not_not]

theorem exec_lineActive {s : State} {n : Fin 24} (h : s.ready) (ha : s.monitor.active n = false) :
    exec (.lineActive n) s = .next ((s.readLevel n (s.monitor.line n).polarity.activeLevel).lineRises n) := by
  show execLineActive n s = _
  simp only [execLineActive, ready_settleDue h, ready_operating h, ha, and_self, if_true]

theorem exec_lineInactive {s : State} {n : Fin 24} (h : s.ready) (ha : s.monitor.active n = true) :
    exec (.lineInactive n) s = .next ((s.readLevel n (!(s.monitor.line n).polarity.activeLevel)).lineFalls n) := by
  show execLineInactive n s = _
  simp only [execLineInactive, ready_settleDue h, ready_operating h, ha, and_self, if_true]

theorem qualifies_iff (l : Line) : l.qualifies = true ↔ l.tracker = .qualifying ∧ l.timer ≠ none := by
  rw [Line.qualifies, Bool.and_eq_true, decide_eq_true_eq, Option.isSome_iff_ne_none]

theorem exec_qualificationExpiry {s : State} {n : Fin 24} (h : s.ready) (hq : (s.monitor.line n).qualifies = true) :
    exec (.qualificationExpiry n) s = .next (s.takeLine n) := by
  show execQualificationExpiry n s = _
  simp only [execQualificationExpiry, ready_settleDue h, ready_operating h, hq, and_self, if_true]

theorem lineRises_of_inactive {s : State} {n : Fin 24} (h : (s.monitor.line n).tracker = .inactive) :
    s.lineRises n = s.startLine n := by
  rw [State.lineRises, h]

/-- The level of an inactive line has become active. -/
theorem exec_lineActive_starts {s : State} {n : Fin 24} {fin : BitVec 24} (h : s.ready)
    (hfin : ∀ k : Fin 24, fin.getLsbD k.val = if k = n then !s.monitor.fin.getLsbD n.val else s.monitor.fin.getLsbD k.val)
    (ha : s.monitor.fin.getLsbD n.val ≠ (s.monitor.line n).polarity.activeLevel)
    (ht : (s.monitor.line n).tracker = .inactive) :
    exec (.lineActive n) s = .next ((s.withMonitor { s.monitor with fin := fin }).startLine n) := by
  have hread : s.readLevel n (s.monitor.line n).polarity.activeLevel = s.withMonitor { s.monitor with fin := fin } := by
    rw [State.readLevel, setLevel_toggled _ ha hfin]
  rw [exec_lineActive h ((active_eq_false_iff _ _).2 ha), hread]
  exact congrArg _ (lineRises_of_inactive ht)

/-- Settles O55. -/
theorem linesAndTheirTrackers : Obligations.LinesAndTheirTrackers := by
  refine ⟨⟨fun s n l fin h hl hfin => ⟨fun ha ht => ⟨fun hq => ?atOnce, fun hq => ?qualifies⟩, fun ha => ?falls,
    fun ht hr => ?expires⟩, fun m n k l => ⟨line_setLine m n k l, rfl, rfl⟩⟩,
    fun s n l hl => ⟨fun ha => ?watchInactive, fun ha hm => ?watchEdge, fun ha hm => ⟨fun hq => ?watchQualifies,
      fun hq => ?watchAtOnce⟩⟩⟩
  all_goals subst hl
  case atOnce => exact (exec_lineActive_starts h hfin ha ht).trans (congrArg _ (startLine_of_zero n hq))
  case qualifies => exact (exec_lineActive_starts h hfin ha ht).trans (congrArg _ (startLine_of_ne_zero n hq))
  case falls =>
    have hread : s.readLevel n (!(s.monitor.line n).polarity.activeLevel) = s.withMonitor { s.monitor with fin := fin } := by
      rw [State.readLevel, setLevel_toggled _ (by rw [ha]; exact fun heq => (Bool.eq_not_self _).1 heq) hfin]
    rw [exec_lineInactive h ((active_iff _ _).2 ha), hread]
    rfl
  case expires => rw [exec_qualificationExpiry h ((qualifies_iff _).2 ⟨ht, hr⟩)]; rfl
  case watchInactive => exact watchLine_of_inactive ((active_eq_false_iff _ _).2 ha)
  case watchEdge => exact watchLine_of_edge ((active_iff _ _).2 ha) hm
  case watchQualifies => rw [watchLine_of_level ((active_iff _ _).2 ha) hm, startLine_of_ne_zero n hq]
  case watchAtOnce => rw [watchLine_of_level ((active_iff _ _).2 ha) hm, startLine_of_zero n hq]; rfl

end Sys2Proof.Machine
end

section
/-! PROOFS. A command on the port: the transaction and its answer; STATUS, READ ALERTS and the reads of the chassis copy
(R150, R151, R154, R155, R156, R164, R166). -/

namespace Sys2Proof.Machine

/-! ### A command and its answer (R150, R151) -/

theorem listening_settleDue {s : State} (h : s.listening) : s.settleDue = s := settleDue_of_nothingDue h.1.2

theorem listening_takesCommands {s : State} (h : s.listening) : s.takesCommands = true := by
  obtain ⟨⟨hop, -⟩, hstraddle⟩ := h
  rw [State.takesCommands, hop, hstraddle]
  rfl

theorem outUndefined_of_operating {s : State} (h : s.operating = true) (hstraddle : s.port.straddle = none) :
    s.outUndefined = false := by
  obtain ⟨hended, -⟩ : s.power.ended = true ∧ s.power.resetLow = false := by
    simpa [State.operating] using h
  simp [State.outUndefined, hended, hstraddle]

/-- R151, R178: a station that runs shifts the stored response out. -/
theorem shifts_of_operating {s : State} (n : Nat) (h : s.operating = true) (hstraddle : s.port.straddle = none) :
    s.shifts n = Spec.shifted s n := by
  have hdefined := outUndefined_of_operating h hstraddle
  have hhigh : s.power.resetLow = false := by
    obtain ⟨-, hhigh⟩ : s.power.ended = true ∧ s.power.resetLow = false := by
      simpa [State.operating] using h
    exact hhigh
  have hbefore : s.port.before = [] := by rw [Port.before, hstraddle]; rfl
  have hbytes : s.bytesOut n = shiftOut s.port.response n := by
    rw [State.bytesOut, hbefore, State.clocks, hdefined, hhigh, if_neg Bool.false_ne_true, if_neg Bool.false_ne_true,
      List.take_nil, List.nil_append, List.length_nil, Nat.sub_zero]
  have hfree : s.freeUsed n = 0 := by rw [State.freeUsed, hdefined]; rfl
  rw [State.shifts, hbytes, hfree, ← hstraddle]
  rfl

theorem transact_listening {s : State} (h : s.listening) (code : Byte) (n : Nat) (act : State → Reply) :
    s.transact code n act = (act (Spec.shifted s n)).stored code (Spec.nextCount s) := by
  rw [State.transact, listening_settleDue h, listening_takesCommands h, if_pos rfl, shifts_of_operating n h.1.1 h.2]
  rfl

/-- A command that a listening port takes, from the reply of its row. -/
theorem exec_answered {s t : State} {i : Instr} {code : Byte} {n m : Nat} {act : State → Reply} {status : Status}
    {data : List Byte} (h : s.listening) (hexec : exec i s = .next (s.transact code n act)) (hn : n = m)
    (hact : act (Spec.shifted s m) = ⟨status, data, t⟩) (hport : t.port.count = s.port.count) :
    exec i s = .next (Spec.answered t code status data) := by
  subst hn
  rw [hexec, transact_listening h, hact, Reply.stored, Spec.answered, Spec.nextCount, Spec.nextCount, hport]

/-! ### STATUS (R154) -/

theorem reportedCopy_eq {s : State} {c : Chassis} (hv : s.copyValid = true → c = s.chassis)
    (hn : s.copyValid = false → c = State.reset.chassis) : s.reportedCopy = c := by
  unfold State.reportedCopy
  cases h : s.copyValid with
  | true => exact (hv h).symm
  | false => exact (hn h).symm

theorem statusFlags_eq (roster valid autojoin : Bool) :
    byteOf (BitVec.ofBool roster ++ BitVec.ofBool valid ++ BitVec.ofBool autojoin)
      = (if roster then 4 else 0) + (if valid then 2 else 0) + (if autojoin then 1 else 0) := by
  revert roster valid autojoin
  decide

theorem clearBytes_length (c : Option ClearRecord) : (clearBytes c).length = 11 := by cases c <;> rfl

theorem statusData_length (s : State) : s.statusData.length = 48 := by
  rw [State.statusData, List.length_append, clearBytes_length]
  rfl

theorem stationBytes_eq {s : State} {c : Chassis} (h : s.reportedCopy = c) : s.stationBytes
    = [s.straps.addr.setWidth 8, s.straps.rate.setWidth 8,
        (if s.ctl.duties.isSome then 4 else 0) + (if s.copyValid then 2 else 0) + (if s.straps.autojoin then 1 else 0),
        s.ctl.station.code, s.ctl.attempts, s.ctl.cause.code, s.outputs.driven.code, s.outputs.lastKnown.code,
        c.level.code] := by
  rw [State.stationBytes, statusFlags_eq, h]
  rfl

/-- Settles O51. -/
theorem statusCommand : Obligations.StatusCommand := by
  intro s rest c h hv hn
  have hcopy := reportedCopy_eq hv hn
  have hstation := stationBytes_eq hcopy
  refine ⟨s.statusData, exec_answered h rfl rfl rfl rfl, statusData_length s, ?_⟩
  rw [State.statusData, hstation, hcopy]
  unfold clearBytes
  cases s.port.clear <;> rfl

/-! ### READ ALERTS (R164, R166) -/

theorem alertLine_iff (pending mask : Byte) : alertLine pending mask = true ↔ pending &&& ~~~mask ≠ 0 := by
  rw [alertLine, bne_iff_ne]

theorem alertsOf_zero (mask : Byte) : Alerts.of 0 mask = ⟨0, mask, false⟩ := by
  have hline : alertLine 0 mask = false := by
    rw [← Bool.not_eq_true, alertLine_iff]
    exact fun h => h BitVec.zero_and
  rw [Alerts.of, hline]

/-- Settles O52. -/
theorem alertCommand : Obligations.AlertCommand := by
  refine ⟨fun s rest h => ?reads, fun s c => ⟨rfl, rfl, alertLine_iff _ _, rfl⟩⟩
  case reads =>
    rw [← alertsOf_zero]
    exact exec_answered (t := (Spec.shifted s (1 + rest.length)).withAlerts (Alerts.of 0 s.alerts.mask)) h rfl rfl rfl rfl

/-! ### Argument bytes (R152) -/

theorem withByte_of_some {α : Type} {b : Byte} {range : Byte → Option α} {v : α} (rest : List Byte)
    (act : α → State → Reply) (t : State) (h : range b = some v) : withByte (b :: rest) range act t = act v t := by
  rw [withByte, h]

theorem withByte_of_none {α : Type} {b : Byte} {range : Byte → Option α} (rest : List Byte) (act : α → State → Reply)
    (t : State) (h : range b = none) : withByte (b :: rest) range act t = refuse .badArg t := by
  rw [withByte, h]

theorem within_zero {high b : Byte} (h : b ≤ high) : within 0 high b = some b := if_pos ⟨by bv_omega, h⟩

theorem within_of_le {low high b : Byte} (hl : low ≤ b) (hh : b ≤ high) : within low high b = some b := if_pos ⟨hl, hh⟩

theorem length_two (rest : List Byte) (b : Byte) : 1 + (b :: rest).length = 2 + rest.length := by
  rw [List.length_cons]
  omega

/-! ### The reads of the chassis copy (R155, R156) -/

theorem readCopy_of_valid {t : State} (data : State → List Byte) (h : t.copyValid = true) :
    readCopy data t = ⟨.done, data t, t⟩ := if_pos h

theorem readCopy_of_invalid {t : State} (data : State → List Byte) (h : t.copyValid = false) :
    readCopy data t = ⟨.invalid, [], t⟩ := by
  rw [readCopy, h, if_neg Bool.false_ne_true]
  rfl

/-- Settles O53. -/
theorem chassisReads : Obligations.ChassisReads := by
  intro s rest h
  refine ⟨fun hv => ⟨fun position hp => ?entry, ?first, ?roster⟩, fun hv => ⟨fun position hp => ?noEntry, ?noFirst, ?noRoster⟩⟩
  case entry =>
    exact exec_answered h rfl (length_two rest position)
      ((withByte_of_some rest _ _ (within_zero hp)).trans (readCopy_of_valid _ hv)) rfl
  case first => exact exec_answered h rfl rfl (readCopy_of_valid _ hv) rfl
  case roster => exact exec_answered h rfl rfl (readCopy_of_valid _ hv) rfl
  case noEntry =>
    exact exec_answered h rfl (length_two rest position)
      ((withByte_of_some rest _ _ (within_zero hp)).trans (readCopy_of_invalid _ hv)) rfl
  case noFirst => exact exec_answered h rfl rfl (readCopy_of_invalid _ hv) rfl
  case noRoster => exact exec_answered h rfl rfl (readCopy_of_invalid _ hv) rfl

end Sys2Proof.Machine
end

section
/-! PROOFS. SET STATION and SET SOURCE (R162, R169 to R174). -/

namespace Sys2Proof.Machine

/-! ### The ranges of the value bytes (Table 11-6) -/

theorem switchOf_flagByte (b : Bool) : switchOf (flagByte b) = some b := by cases b <;> rfl

theorem lossOf_code (l : Option Severity) : lossOf (byteOf (lossCode l)) = some l := by
  rcases l with _ | _ | _ | _ <;> rfl

theorem classOf_code (c : SourceClass) : classOf c.code = some c := by cases c <;> rfl

theorem within_one {v : Byte} (h : v ≠ 0) : within 1 255 v = some v := within_of_le (by bv_omega) (by bv_omega)

theorem sourceArg_of_val {source : Byte} {n : Fin 32} (h : source.toNat = n.val) : sourceArg source = some n := by
  have hlt : source.toNat < 32 := h ▸ n.isLt
  rw [sourceArg, dif_pos hlt]
  exact congrArg some (Fin.ext h)

theorem lineArg_of_val {source : Byte} {n : Fin 24} (h : source.toNat = n.val) :
    (sourceArg source).bind lineOf = some n := by
  rw [sourceArg_of_val (n := sourceOfLine n) h, Option.bind_some, lineOf, dif_pos (show (sourceOfLine n).val < 24 from n.isLt)]
  rfl

/-! ### A write in range (R171) -/

theorem locked_of_detached {t : State} (write : State → State) (h : t.ctl.station = .detached) :
    locked write t = ⟨.done, [], write t⟩ := if_pos h

theorem locked_of_other {t : State} (write : State → State) (h : t.ctl.station ≠ .detached) :
    locked write t = ⟨.locked, [], t⟩ := if_neg h

/-- R171: a write that leaves `t` is taken while DETACHED, and LOCKED in every other state. -/
def WriteAnswered (s t : State) (i : Instr) (code : Byte) (n : Nat) : Prop :=
  (s.ctl.station = .detached → exec i s = .next (Spec.answered t code .done []))
    ∧ (s.ctl.station ≠ .detached → exec i s = .next (Spec.answered (Spec.shifted s n) code .locked []))

theorem exec_locked {s t : State} {i : Instr} {code : Byte} {n m : Nat} {act : State → Reply} (write : State → State)
    (h : s.listening) (hexec : exec i s = .next (s.transact code n act)) (hn : n = m)
    (hact : act (Spec.shifted s m) = locked write (Spec.shifted s m)) (ht : write (Spec.shifted s m) = t)
    (hport : t.port.count = s.port.count) : WriteAnswered s t i code m := by
  subst ht
  exact ⟨fun hst => exec_answered h hexec hn (hact.trans (locked_of_detached write hst)) hport,
    fun hst => exec_answered h hexec hn (hact.trans (locked_of_other write hst)) rfl⟩

theorem setStation_of_range {α : Type} {v : Byte} {range : Byte → Option α} {x : α} (rest : List Byte)
    (write : α → State → State) (t : State) (h : range v = some x) :
    setStation (v :: rest) range write t = locked (write x) t := withByte_of_some rest _ t h

theorem setSource_of_range {α : Type} {source v : Byte} {n : Fin 32} {range : Byte → Option α} {x : α} (rest : List Byte)
    (write : Fin 32 → α → State → State) (t : State) (hs : source.toNat = n.val) (h : range v = some x) :
    setSource source (v :: rest) range write t = locked (write n x) t := by
  rw [setSource, sourceArg_of_val hs]
  exact withByte_of_some rest _ t h

theorem setLineItem_of_range {α : Type} {source v : Byte} {n : Fin 24} {range : Byte → Option α} {x : α} (rest : List Byte)
    (write : Fin 24 → α → State → State) (t : State) (hs : source.toNat = n.val) (h : range v = some x) :
    setLineItem source (v :: rest) range write t = locked (write n x) t := by
  rw [setLineItem, lineArg_of_val hs]
  exact withByte_of_some rest _ t h

theorem length_three (rest : List Byte) (b : Byte) : 2 + (b :: rest).length = 3 + rest.length := by
  rw [List.length_cons]
  omega

theorem length_four (rest : List Byte) (b : Byte) : 3 + (b :: rest).length = 4 + rest.length := by
  rw [List.length_cons]
  omega

theorem alertsOf_eq (pending mask : Byte) : Alerts.of pending mask = ⟨pending, mask, decide (pending &&& ~~~mask ≠ 0)⟩ := by
  have hline : alertLine pending mask = decide (pending &&& ~~~mask ≠ 0) := by
    rw [Bool.eq_iff_iff, alertLine_iff, decide_eq_true_eq]
  rw [Alerts.of, hline]

theorem exec_setStationItem {s t : State} {i : Instr} {α : Type} {v : Byte} {rest : List Byte} {range : Byte → Option α}
    {write : α → State → State} {x : α} (h : s.listening)
    (hexec : exec i s = .next (s.transact 0x03 (2 + (v :: rest).length) (setStation (v :: rest) range write)))
    (hrange : range v = some x) (ht : write x (Spec.shifted s (3 + rest.length)) = t) (hport : t.port.count = s.port.count) :
    WriteAnswered s t i 0x03 (3 + rest.length) :=
  exec_locked (write x) h hexec (length_three rest v) (setStation_of_range rest write _ hrange) ht hport

theorem exec_setSourceItem {s t : State} {i : Instr} {α : Type} {source v : Byte} {n : Fin 32} {rest : List Byte}
    {range : Byte → Option α} {write : Fin 32 → α → State → State} {x : α} (h : s.listening)
    (hexec : exec i s = .next (s.transact 0x04 (3 + (v :: rest).length) (setSource source (v :: rest) range write)))
    (hs : source.toNat = n.val) (hrange : range v = some x) (ht : write n x (Spec.shifted s (4 + rest.length)) = t)
    (hport : t.port.count = s.port.count) : WriteAnswered s t i 0x04 (4 + rest.length) :=
  exec_locked (write n x) h hexec (length_four rest v) (setSource_of_range rest write _ hs hrange) ht hport

theorem exec_setSourceLineItem {s t : State} {i : Instr} {α : Type} {source v : Byte} {n : Fin 24} {rest : List Byte}
    {range : Byte → Option α} {write : Fin 24 → α → State → State} {x : α} (h : s.listening)
    (hexec : exec i s = .next (s.transact 0x04 (3 + (v :: rest).length) (setLineItem source (v :: rest) range write)))
    (hs : source.toNat = n.val) (hrange : range v = some x) (ht : write n x (Spec.shifted s (4 + rest.length)) = t)
    (hport : t.port.count = s.port.count) : WriteAnswered s t i 0x04 (4 + rest.length) :=
  exec_locked (write n x) h hexec (length_four rest v) (setLineItem_of_range rest write _ hs hrange) ht hport

theorem exec_setStation {s t : State} {i : Instr} {v : Byte} {rest : List Byte} (h : s.listening)
    (hw : Spec.stationWrite (Spec.shifted s (3 + rest.length)) i v rest t) : WriteAnswered s t i 0x03 (3 + rest.length) := by
  rcases hw with ⟨rfl, rfl⟩ | ⟨rfl, hv, rfl⟩ | ⟨b, rfl, rfl, rfl⟩ | ⟨p, rfl, hv, rfl⟩ | ⟨rfl, rfl⟩ | ⟨rfl, hlow, hhigh, rfl⟩
    | ⟨l, rfl, rfl, rfl⟩
  · exact exec_setStationItem h rfl rfl rfl rfl
  · exact exec_setStationItem h rfl (within_one hv) rfl rfl
  · exact exec_setStationItem h rfl (switchOf_flagByte b) rfl rfl
  · exact exec_setStationItem h rfl hv rfl (by rw [State.redrive_port]; rfl)
  · rw [← alertsOf_eq]
    exact exec_setStationItem h rfl rfl rfl rfl
  · exact exec_setStationItem h rfl (within_of_le hlow hhigh) rfl rfl
  · exact exec_setStationItem h rfl (lossOf_code l) rfl rfl

theorem exec_setSource {s t : State} {i : Instr} {v : Byte} {rest : List Byte} (h : s.listening)
    (hw : Spec.sourceWrite (Spec.shifted s (4 + rest.length)) i v rest t) : WriteAnswered s t i 0x04 (4 + rest.length) := by
  rcases hw with ⟨n, source, hn, ⟨c, rfl, rfl, rfl⟩ | ⟨rfl, hv, rfl⟩⟩ | ⟨n, source, hn, ⟨m, rfl, hv, rfl⟩ | ⟨p, rfl, hv, rfl⟩⟩
  · exact exec_setSourceItem h rfl hn (classOf_code c) rfl rfl
  · exact exec_setSourceItem h rfl hn (within_one hv) rfl rfl
  · exact exec_setSourceLineItem h rfl hn hv rfl (by rw [(watchLine_local n _).port]; rfl)
  · exact exec_setSourceLineItem h rfl hn hv rfl (by rw [(watchLine_local n _).port]; rfl)

/-- Settles O54. -/
theorem configurationWrites : Obligations.ConfigurationWrites :=
  fun _ _ _ _ _ h => ⟨exec_setStation h, exec_setSource h⟩

end Sys2Proof.Machine
end

section
/-! PROOFS. Source commands, JOIN and LEAVE, and the local log on the port (R125, R130 to R132, R145, R147, R157, R160, R161). -/

namespace Sys2Proof.Machine

/-! ### Lines among the sources (Table 7-2) -/

theorem lineOf_eq_some_iff (n : Fin 32) (k : Fin 24) : lineOf n = some k ↔ k.val = n.val := by
  unfold lineOf
  split
  · rw [Option.some.injEq, Fin.ext_iff, eq_comm]
  · next h => exact ⟨nofun, fun hk => absurd (hk ▸ k.isLt) h⟩

theorem lineOf_eq_none {n : Fin 32} (h : 24 ≤ n.val) : lineOf n = none := dif_neg (Nat.not_lt.2 h)

theorem lineByte_of_other {m : Monitor} {n : Fin 32} (h : 24 ≤ n.val) : m.lineByte n = 0 := by
  rw [Monitor.lineByte, lineOf_eq_none h]

theorem trackerCode_or_active (t : Tracker) (active : Bool) :
    (if active then 0x80 else 0x00) ||| t.code = (if active then 0x80 else 0x00) + t.code := by
  cases t <;> cases active <;> rfl

theorem lineByte_of_line {m : Monitor} {n : Fin 32} {k : Fin 24} (h : k.val = n.val) : m.lineByte n
    = (if m.fin.getLsbD k.val = (m.line k).polarity.activeLevel then 0x80 else 0x00) + (m.line k).tracker.code := by
  rw [Monitor.lineByte, (lineOf_eq_some_iff n k).2 h]
  dsimp only
  rw [trackerCode_or_active, if_congr (active_iff m k) rfl rfl]

theorem levelActive_of_line {m : Monitor} {n : Fin 32} {k : Fin 24} (h : k.val = n.val) (hm : (m.line k).mode = .level)
    (ha : m.fin.getLsbD k.val = (m.line k).polarity.activeLevel) : m.levelActive n = true := by
  rw [Monitor.levelActive, (lineOf_eq_some_iff n k).2 h]
  dsimp only
  rw [hm, (active_iff m k).2 ha]
  rfl

theorem levelActive_eq_false {m : Monitor} {n : Fin 32} (h : ∀ k : Fin 24, k.val = n.val → (m.line k).mode = .edge
    ∨ m.fin.getLsbD k.val ≠ (m.line k).polarity.activeLevel) : m.levelActive n = false := by
  unfold Monitor.levelActive
  cases hk : lineOf n with
  | none => rfl
  | some k =>
    dsimp only
    rcases h k ((lineOf_eq_some_iff n k).1 hk) with hm | ha
    · rw [hm]
      rfl
    · rw [(active_eq_false_iff m k).2 ha, Bool.and_false]

theorem raisedSource_of_val {source : Byte} {n : Fin 32} (h : source.toNat = n.val) (hl : 24 ≤ n.val) (hh : n.val ≤ 29) :
    raisedSource source = some n := by
  rw [raisedSource, within_of_le (by bv_omega) (by bv_omega), Option.bind_some, sourceArg_of_val h]

/-- Settles O57. -/
theorem sourceCommands : Obligations.SourceCommands := by
  refine ⟨fun s n rest x h hx => ⟨s.monitor.lineByte n, ?counter, lineByte_of_other, fun k l hk hl => ?line⟩,
    fun s n source h hn => ⟨fun a b c d rest hl hh => ?raise, fun rest hno => ?release, fun rest k l hk hl hm ha => ?active,
      fun rest => ?clear⟩⟩
  case counter =>
    have hsource : (BitVec.ofNat 8 n.val).toNat = n.val := by
      rw [BitVec.toNat_ofNat]
      exact Nat.mod_eq_of_lt (by omega)
    subst hx
    exact exec_answered h rfl (length_two rest _) (withByte_of_some rest _ _ (sourceArg_of_val hsource)) rfl
  case line =>
    subst hl
    exact lineByte_of_line hk
  case raise =>
    refine exec_answered h rfl (m := 6 + rest.length) ?_ ?_ (by rw [(assertSource_local _ _ _).port]; rfl)
    · simp only [List.length_cons]
      omega
    · dsimp only
      rw [raisedSource_of_val hn hl hh]
      rfl
  case release =>
    refine exec_answered h rfl (length_two rest source) ((withByte_of_some rest _ _ (sourceArg_of_val hn)).trans ?_) rfl
    have hinactive : s.monitor.levelActive n = false := levelActive_eq_false fun k hk => hno k _ hk rfl
    exact if_neg fun hactive => Bool.false_ne_true (hinactive.symm.trans hactive)
  case active =>
    subst hl
    exact exec_answered h rfl (length_two rest source) ((withByte_of_some rest _ _ (sourceArg_of_val hn)).trans
      (if_pos (levelActive_of_line hk hm ha))) rfl
  case clear =>
    exact exec_answered h rfl (length_two rest source) (withByte_of_some rest _ _ (sourceArg_of_val hn)) rfl

/-! ### JOIN and LEAVE (R102, R116, R160) -/

theorem offerNotice_of_taken {a : Answer} (t : State) (h : a.taken = true) :
    offerNotice a t = ⟨.done, [], t.answered a⟩ := if_pos h

theorem offerNotice_of_refused {a : Answer} (t : State) (h : a.taken = false) : offerNotice a t = ⟨.busy, [], t⟩ := by
  rw [offerNotice, h, if_neg Bool.false_ne_true]
  rfl

theorem urgency_le_four (n : Notice) : n.urgency ≤ 4 := by
  cases n with
  | fault r => cases hr : r.severity <;> simp [Notice.urgency, hr, Severity.urgency]
  | _ => simp [Notice.urgency]

theorem anyLeave_iff (l : List Item) : l.any (fun i => i.notice.isLeave) = true ↔ ∃ i ∈ l, i.notice = .leave := by
  simp only [List.any_eq_true, isLeave_iff]

theorem offerLeave_of_present {q : Queue} (h : ∃ i ∈ q.items, i.notice = .leave) : q.offerLeave = ⟨q, true, none⟩ :=
  if_pos ((anyLeave_iff _).2 h)

theorem offerLeave_of_absent {q : Queue} (h : ∀ i ∈ q.items, i.notice ≠ .leave) : q.offerLeave = q.insert .leave false :=
  if_neg fun hany => by
    obtain ⟨i, hi, hl⟩ := (anyLeave_iff _).1 hany
    exact h i hi hl

/-- A notice that the port offers, and the queue takes with nothing displaced. -/
theorem offerNotice_of_kept {a : Answer} {q : Queue} (t : State) (h : a = ⟨q, true, none⟩) :
    offerNotice a t = ⟨.done, [], t.withQueue q⟩ := by
  subst h
  exact offerNotice_of_taken t rfl

/-- Settles O58. -/
theorem joinAndLeaveCommands : Obligations.JoinAndLeaveCommands := by
  intro s rest h
  refine ⟨fun hst => ?join, fun hst => ?noJoin, fun hst => ?noLeave, fun hst => ⟨fun hpresent => ?present,
    fun habsent => ⟨fun hroom => ⟨_, placeItem_placed _ _, ?room⟩, fun hfull => ?full⟩⟩⟩
  case join => exact exec_answered h rfl rfl (if_pos hst) rfl
  case noJoin => exact exec_answered h rfl rfl (if_neg hst) rfl
  case noLeave => exact exec_answered h rfl rfl (if_neg hst) rfl
  case present =>
    exact exec_answered h rfl rfl ((if_pos hst).trans (offerNotice_of_kept _ (offerLeave_of_present hpresent))) rfl
  case room =>
    exact exec_answered h rfl rfl ((if_pos hst).trans (offerNotice_of_kept _
      ((offerLeave_of_absent habsent).trans (insert_of_room .leave false hroom)))) rfl
  case full =>
    have hrefused := (offerLeave_of_absent habsent).trans
      (insert_refused (n := .leave) false hfull fun x _ => urgency_le_four x.notice)
    exact exec_answered h rfl rfl ((if_pos hst).trans (offerNotice_of_refused _ (congrArg Answer.taken hrefused))) rfl

/-! ### The local log (R145, R147, R161) -/

theorem selected_first (l : Log) : l.selected 0x10 = some l.first := if_pos rfl

theorem selected_next (l : Log) {selector : Byte} (h : selector ≤ 0x07) : l.selected selector = some l.next[selector.toNat]? := by
  rw [Log.selected, if_neg (by bv_omega), if_pos h]

theorem clearLocalFirst_of_none {s : State} (h : s.log.first = none) : s.clearLocalFirst = s := by
  rw [State.clearLocalFirst, h]

theorem clearLocalFirst_of_some {s : State} {r : Record} (h : s.log.first = some r) : s.clearLocalFirst
    = ((s.withLog s.log.promote).withQueue (s.queue.unlink (r.source.setWidth 6))).setCauseIf (!s.log.next.isEmpty)
        .localFirst := by
  rw [State.clearLocalFirst, h]

theorem promote_of_nil {l : Log} (h : l.next = []) : l.promote = { l with first := none } := by
  unfold Log.promote
  split
  · rfl
  · next hnext => cases h.symm.trans hnext

theorem clearLocalFirst_of_last {s : State} {r : Record} (h : s.log.first = some r) (hnext : s.log.next = []) :
    s.clearLocalFirst = (s.withLog { s.log with first := none }).withQueue (s.queue.unlink (r.source.setWidth 6)) := by
  have hempty : (!s.log.next.isEmpty) = false := by rw [hnext]; rfl
  rw [clearLocalFirst_of_some h, promote_of_nil hnext, hempty]
  rfl

theorem clearLocalFirst_of_more {s : State} {r x : Record} {more : List Record} (h : s.log.first = some r)
    (hnext : s.log.next = x :: more) : s.clearLocalFirst = ((s.withLog { s.log with first := some x, next := more }).withQueue
      (s.queue.unlink (r.source.setWidth 6))).setCause .localFirst := by
  rw [clearLocalFirst_of_some h, Log.promote, hnext]
  rfl

/-- Settles O60. -/
theorem localLogCommands : Obligations.LocalLogCommands := by
  refine ⟨fun s rest h selector r hr => ?read, fun s rest h => ⟨fun hnone => ?none, fun r hr hnext => ?last,
    fun r x more hr hnext => ?more, fun q source => ⟨?waiting, ?flying, rfl⟩⟩⟩
  case read =>
    have hselected : s.log.selected selector = some r := by
      rcases hr with ⟨rfl, rfl⟩ | ⟨hle, rfl⟩
      · exact selected_first s.log
      · exact selected_next s.log hle
    exact exec_answered h rfl (length_two rest selector) (withByte_of_some rest _ _ hselected) rfl
  case none =>
    exact exec_answered h rfl rfl (congrArg done (clearLocalFirst_of_none (s := Spec.shifted s _) hnone)) rfl
  case last =>
    exact exec_answered h rfl rfl (congrArg done (clearLocalFirst_of_last (s := Spec.shifted s _) hr hnext)) rfl
  case more =>
    exact exec_answered h rfl rfl (congrArg done (clearLocalFirst_of_more (s := Spec.shifted s _) hr hnext)) rfl
  case waiting => rw [← unlink_eq_relinked]; rfl
  case flying => rw [Spec.metHead, ← unlink_eq_relinked]; rfl

end Sys2Proof.Machine
end

section
/-! PROOFS. RESOLVE and REQUEST CLEAR on the port (R28, R66, R67, R158, R159). -/

namespace Sys2Proof.Machine

/-! ### A notice that the queue answers by displacing (R66) -/

theorem offerNotice_of_displacing {a : Answer} {q : Queue} {i : Item} (t : State) (h : a = ⟨q, true, some i⟩)
    (hi : (∀ r, i.notice ≠ .fault r) ∨ i.linked = false) : offerNotice a t
      = ⟨.done, [], (t.withQueue { q with loss := Spec.bump q.loss }).setCause .queueLoss⟩ := by
  subst h
  rw [offerNotice_of_taken t rfl, answered_of_unlinked t rfl hi, bump_eq]

theorem offerNotice_of_displacing_linked {a : Answer} {q : Queue} {i : Item} {r : Report} (t : State)
    (h : a = ⟨q, true, some i⟩) (hi : i.notice = .fault r) (hl : i.linked = true) : offerNotice a t
      = ⟨.done, [], ((t.withQueue { q.unlink r.source with loss := Spec.bump q.loss }).withLog
          (t.log.setState r.source .unsent)).setCause .queueLoss⟩ := by
  subst h
  rw [offerNotice_of_taken t rfl, answered_of_linked t rfl hi hl, bump_eq]

/-! ### RESOLVE (R158) -/

theorem latchedByte_eq_true {m : Monitor} {source : Byte} {n : Fin 32} (h : source.toNat = n.val)
    (hl : (m.source n).latched = true) : m.latchedByte source = true := by
  rw [Monitor.latchedByte, sourceArg_of_val h]
  exact hl

theorem sourceArg_eq_some_iff (source : Byte) (n : Fin 32) : sourceArg source = some n ↔ source.toNat = n.val := by
  refine ⟨fun h => ?_, sourceArg_of_val⟩
  unfold sourceArg at h
  split at h
  · injection h with h
    rw [← h]
  · cases h

theorem latchedByte_eq_false {m : Monitor} {source : Byte}
    (h : ∀ n : Fin 32, source.toNat = n.val → (m.source n).latched = false) : m.latchedByte source = false := by
  unfold Monitor.latchedByte
  cases hn : sourceArg source with
  | none => rfl
  | some n => exact h n ((sourceArg_eq_some_iff source n).1 hn)

theorem offerResolve_of_present {q : Queue} {source : BitVec 6} (h : ∃ i ∈ q.waiting, i.notice = .resolve source) :
    q.offerResolve source = ⟨q, true, none⟩ :=
  if_pos (by simpa only [List.any_eq_true, isResolve_iff] using h)

theorem offerResolve_of_absent {q : Queue} {source : BitVec 6} (h : ∀ i ∈ q.waiting, i.notice ≠ .resolve source) :
    q.offerResolve source = q.insert (.resolve source) false :=
  if_neg fun hany => by
    obtain ⟨i, hi, hr⟩ := List.any_eq_true.1 hany
    exact h i hi ((isResolve_iff _ _).1 hr)

theorem urgency_le_three {n : Notice} (h : n ≠ .leave) : n.urgency ≤ 3 := by
  cases n with
  | leave => exact absurd rfl h
  | fault r => cases hr : r.severity <;> simp [Notice.urgency, hr, Severity.urgency]
  | _ => simp [Notice.urgency]

/-- RESOLVE for a source 0 to 32, from its reply. -/
theorem exec_resolve {s t : State} {source : Byte} {status : Status} {rest : List Byte} (h : s.listening) (hs : source ≤ 32)
    (hact : (if s.monitor.latchedByte source then refuse .active (Spec.shifted s (2 + rest.length))
      else offerNotice (s.queue.offerResolve (source.setWidth 6)) (Spec.shifted s (2 + rest.length))) = ⟨status, [], t⟩)
    (hport : t.port.count = s.port.count) :
    exec (.resolve (source :: rest)) s = .next (Spec.answered t 0x09 status []) :=
  exec_answered h rfl (length_two rest source) ((withByte_of_some rest _ _ (within_zero hs)).trans hact) hport

/-- RESOLVE for a source that is not latched, from what the queue answers. -/
theorem exec_resolve_offered {s t : State} {source : Byte} {status : Status} {rest : List Byte} (h : s.listening)
    (hs : source ≤ 32) (hno : ∀ n : Fin 32, source.toNat = n.val → (s.monitor.source n).latched = false)
    (hact : offerNotice (s.queue.offerResolve (source.setWidth 6)) (Spec.shifted s (2 + rest.length)) = ⟨status, [], t⟩)
    (hport : t.port.count = s.port.count) :
    exec (.resolve (source :: rest)) s = .next (Spec.answered t 0x09 status []) := by
  refine exec_resolve h hs ?_ hport
  rw [latchedByte_eq_false hno, if_neg Bool.false_ne_true, hact]

/-! ### REQUEST CLEAR (R28, R159) -/

/-- R28, R159: the CLEAR a command asks for, with 0 in the fields its scope does not use. -/
def Scope.request (scope : Scope) (origin : Addr) (reference : Word) : Notice :=
  match scope with
  | .first => .clear .first 0 reference
  | .halt => .clear .halt 0 0
  | .origin => .clear .origin origin 0

theorem offerRequested_eq (q : Queue) (scope : Scope) (origin : Addr) (reference : Word) :
    q.offerRequested scope origin reference = q.insert (scope.request origin reference) false := by
  cases scope <;> rfl

theorem request_urgency (scope : Scope) (origin : Addr) (reference : Word) : (scope.request origin reference).urgency = 1 := by
  cases scope <;> rfl

theorem scopeArg_code (scope : Scope) : scopeArg (byteOf scope.code) = some scope := by cases scope <;> rfl

theorem within_origin (origin : Addr) : within 0 15 (byteOf origin) = some (byteOf origin) :=
  within_zero (by unfold byteOf; bv_omega)

theorem setWidth_byteOf (origin : Addr) : (byteOf origin).setWidth 4 = origin := by
  unfold byteOf
  bv_omega

/-- REQUEST CLEAR with arguments in range, from its reply. -/
theorem exec_requestClear {s t : State} {scope : Scope} {origin : Addr} {a b c d : Byte} {status : Status} {rest : List Byte}
    (h : s.listening) (hact : (if s.ctl.station = .member then
        offerNotice (s.queue.insert (scope.request origin (a ++ b ++ c ++ d)) false) (Spec.shifted s (7 + rest.length))
      else refuse .wrongState (Spec.shifted s (7 + rest.length))) = ⟨status, [], t⟩)
    (hport : t.port.count = s.port.count) :
    exec (.requestClear (byteOf scope.code :: byteOf origin :: a :: b :: c :: d :: rest)) s
      = .next (Spec.answered t 0x0A status []) := by
  refine exec_answered h rfl (m := 7 + rest.length) ?_ ?_ hport
  · simp only [List.length_cons]
    omega
  · dsimp only
    rw [scopeArg_code, within_origin]
    dsimp only
    rw [offerRequested_eq, setWidth_byteOf]
    exact hact

/-- REQUEST CLEAR at a MEMBER, from what the queue answers. -/
theorem exec_requestClear_member {s t : State} {scope : Scope} {origin : Addr} {a b c d : Byte} {status : Status}
    {rest : List Byte} (h : s.listening) (hst : s.ctl.station = .member)
    (hact : offerNotice (s.queue.insert (scope.request origin (a ++ b ++ c ++ d)) false) (Spec.shifted s (7 + rest.length))
      = ⟨status, [], t⟩) (hport : t.port.count = s.port.count) :
    exec (.requestClear (byteOf scope.code :: byteOf origin :: a :: b :: c :: d :: rest)) s
      = .next (Spec.answered t 0x0A status []) :=
  exec_requestClear h ((if_pos hst).trans hact) hport

/-- Settles O59. -/
theorem resolveAndRequestClearCommands : Obligations.ResolveAndRequestClearCommands := by
  refine ⟨fun s source rest h hs => ⟨fun hlatched => ?latched, fun hno => ⟨fun hpresent => ?present, fun habsent =>
    ⟨fun hroom => ⟨_, placeItem_placed _ _, ?room⟩, fun hfull hleave => ?full,
      fun l last hfull hw hl hlast => ⟨_, placeItem_placed _ _, ?displaces⟩⟩⟩⟩, ?clear⟩
  case latched =>
    obtain ⟨n, hn, hl⟩ := hlatched
    exact exec_resolve h hs (if_pos (latchedByte_eq_true hn hl)) rfl
  case present => exact exec_resolve_offered h hs hno (offerNotice_of_kept _ (offerResolve_of_present hpresent)) rfl
  case room =>
    exact exec_resolve_offered h hs hno
      (offerNotice_of_kept _ ((offerResolve_of_absent habsent).trans (insert_of_room _ false hroom))) rfl
  case full =>
    have hrefused := (offerResolve_of_absent habsent).trans
      (insert_refused false hfull fun x hx => urgency_le_three (hleave x hx))
    exact exec_resolve_offered h hs hno (offerNotice_of_refused _ (congrArg Answer.taken hrefused)) rfl
  case displaces =>
    have hdisplaced := (offerResolve_of_absent habsent).trans (insert_displaces false hfull hw hl (by rw [hlast]; exact Nat.lt_succ_self 3))
    exact exec_resolve_offered h hs hno (offerNotice_of_displacing _ hdisplaced (Or.inl (by rw [hlast]; nofun))) rfl
  case clear =>
    intro s scope origin a b c d rest n h hn i hi
    have hn : n = scope.request origin (a ++ b ++ c ++ d) := by rw [hn]; cases scope <;> rfl
    subst hi hn
    have hurgency := request_urgency scope origin (a ++ b ++ c ++ d)
    refine ⟨fun hst => ?wrongState, fun hst => ⟨fun hroom => ⟨_, placeItem_placed _ _, ?clearRoom⟩, fun hfull hall => ?busy,
      fun l last hfull hw hl hlast => ⟨_, placeItem_placed _ _, fun hi => ?displacing, fun r hr hlinked => ?linked⟩⟩⟩
    case wrongState => exact exec_requestClear h (if_neg hst) rfl
    case clearRoom => exact exec_requestClear_member h hst (offerNotice_of_kept _ (insert_of_room _ false hroom)) rfl
    case busy =>
      have hrefused := insert_refused (n := scope.request origin (a ++ b ++ c ++ d)) false hfull
        fun x hx => (hall x hx).trans_le (Nat.le_of_eq hurgency.symm)
      exact exec_requestClear_member h hst (offerNotice_of_refused _ (congrArg Answer.taken hrefused)) rfl
    all_goals
      have hdisplaced := insert_displaces (n := scope.request origin (a ++ b ++ c ++ d)) false hfull hw hl (by rwa [hurgency])
    case displacing => exact exec_requestClear_member h hst (offerNotice_of_displacing _ hdisplaced hi) rfl
    case linked => exact exec_requestClear_member h hst (offerNotice_of_displacing_linked _ hdisplaced hr hlinked) rfl

end Sys2Proof.Machine
end

section
/-! PROOFS. Missing or out-of-range arguments and unknown codes (R150, R152, R178). -/

namespace Sys2Proof.Machine

/-! ### Values out of range (Table 11-5, Table 11-6) -/

theorem within_eq_none {low high b : Byte} (h : b < low ∨ high < b) : within low high b = none := if_neg (by bv_omega)

theorem switchOf_eq_none {v : Byte} (h : 2 ≤ v) : switchOf v = none := by
  rw [switchOf, if_neg (by bv_omega), if_neg (by bv_omega)]

theorem modeOf_eq_none {v : Byte} (h : 2 ≤ v) : modeOf v = none := by
  rw [modeOf, if_neg (by bv_omega), if_neg (by bv_omega)]

theorem polarityOf_eq_none {v : Byte} (h : 2 ≤ v) : polarityOf v = none := by
  rw [polarityOf, if_neg (by bv_omega), if_neg (by bv_omega)]

theorem policyOf_eq_none {v : Byte} (h : 3 ≤ v) : policyOf v = none := by
  rw [policyOf, if_neg (by bv_omega), if_neg (by bv_omega), if_neg (by bv_omega)]

theorem lossOf_eq_none {v : Byte} (h : 4 ≤ v) : lossOf v = none := by
  rw [lossOf, if_neg (by bv_omega), if_neg (by bv_omega), if_neg (by bv_omega), if_neg (by bv_omega)]

theorem classOf_eq_none {v : Byte} (h : 5 ≤ v) : classOf v = none := by
  rw [classOf, if_neg (by bv_omega), if_neg (by bv_omega), if_neg (by bv_omega), if_neg (by bv_omega), if_neg (by bv_omega)]

theorem sourceArg_eq_none {source : Byte} (h : 32 ≤ source) : sourceArg source = none := dif_neg (by bv_omega)

theorem lineArg_eq_none {source : Byte} (h : 24 ≤ source) : (sourceArg source).bind lineOf = none := by
  cases hn : sourceArg source with
  | none => rfl
  | some n =>
    have hval := (sourceArg_eq_some_iff source n).1 hn
    exact lineOf_eq_none (by bv_omega)

theorem raisedSource_eq_none {source : Byte} (h : source < 24 ∨ 29 < source) : raisedSource source = none := by
  rw [raisedSource, within_eq_none h, Option.bind_none]

theorem scopeArg_eq_none {b : Byte} (h : 3 ≤ b) : scopeArg b = none := by
  unfold scopeArg
  split
  · obtain rfl : b = 3 := by bv_omega
    rfl
  · rfl

theorem selected_eq_none (l : Log) {selector : Byte} (h : 0x07 < selector) (hne : selector ≠ 0x10) : l.selected selector = none := by
  rw [Log.selected, if_neg hne, if_neg (by bv_omega)]

/-! ### Replies to bad arguments (R152) -/

theorem withByte_bad {α : Type} {rest : List Byte} {range : Byte → Option α} (act : α → State → Reply) (t : State)
    (h : rest = [] ∨ ∃ b r, rest = b :: r ∧ range b = none) : withByte rest range act t = refuse .badArg t := by
  rcases h with rfl | ⟨b, r, rfl, hb⟩
  · rfl
  · exact withByte_of_none r act t hb

theorem setSource_bad {α : Type} {source : Byte} {rest : List Byte} {range : Byte → Option α}
    (write : Fin 32 → α → State → State) (t : State)
    (h : sourceArg source = none ∨ rest = [] ∨ ∃ b r, rest = b :: r ∧ range b = none) :
    setSource source rest range write t = refuse .badArg t := by
  unfold setSource
  cases hn : sourceArg source with
  | none => rfl
  | some n => exact withByte_bad _ t (h.resolve_left (by rw [hn]; nofun))

theorem setLineItem_bad {α : Type} {source : Byte} {rest : List Byte} {range : Byte → Option α}
    (write : Fin 24 → α → State → State) (t : State)
    (h : (sourceArg source).bind lineOf = none ∨ rest = [] ∨ ∃ b r, rest = b :: r ∧ range b = none) :
    setLineItem source rest range write t = refuse .badArg t := by
  unfold setLineItem
  cases hn : (sourceArg source).bind lineOf with
  | none => rfl
  | some n => exact withByte_bad _ t (h.resolve_left (by rw [hn]; nofun))

/-- A command that a listening port answers BAD_ARG. -/
theorem exec_badArg {s : State} {i : Instr} {code : Byte} {n m : Nat} {act : State → Reply} (h : s.listening)
    (hexec : exec i s = .next (s.transact code n act)) (hn : n = m)
    (hact : act (Spec.shifted s m) = refuse .badArg (Spec.shifted s m)) :
    exec i s = .next (Spec.answered (Spec.shifted s m) code .badArg []) := exec_answered h hexec hn hact rfl

/-- A transaction that spells no row, and is not idle, is answered with its code. -/
theorem exec_noRow {s : State} {code : Byte} {bytes : List Byte} (h : s.listening) (hrow : spellsNoRow (code :: bytes) = true)
    (hcode : code ≠ 0xFF) : exec (.commandCodeNamesNoCommand (code :: bytes)) s
      = .next (Spec.answered (Spec.shifted s (1 + bytes.length)) code .badArg []) := by
  have hexec : exec (.commandCodeNamesNoCommand (code :: bytes)) s
      = .next (s.transact code (code :: bytes).length (refuse .badArg)) := by
    show execCommandCodeNamesNoCommand (code :: bytes) s = _
    rw [execCommandCodeNamesNoCommand, if_pos hrow]
    exact if_neg hcode
  exact exec_badArg h hexec (by rw [List.length_cons, Nat.add_comm]) rfl

theorem length_station (item : Byte) (rest : List Byte) : 2 + rest.length = 1 + (item :: rest).length := by
  rw [List.length_cons]
  omega

theorem length_source (source item : Byte) (rest : List Byte) : 3 + rest.length = 1 + (source :: item :: rest).length := by
  simp only [List.length_cons]
  omega

/-! ### SET STATION -/

theorem exec_setStation_bad {s : State} {i : Instr} {α : Type} {item : Byte} {rest : List Byte} {range : Byte → Option α}
    {write : α → State → State} (h : s.listening)
    (hexec : exec i s = .next (s.transact 0x03 (2 + rest.length) (setStation rest range write)))
    (hbad : rest = [] ∨ ∃ b r, rest = b :: r ∧ range b = none) :
    exec i s = .next (Spec.answered (Spec.shifted s (1 + (item :: rest).length)) 0x03 .badArg []) :=
  exec_badArg h hexec (length_station item rest) (withByte_bad _ _ hbad)

/-- A SET STATION without its value byte. -/
theorem exec_setStation_short {s : State} {bytes : List Byte} (h : s.listening) (hshort : bytes.length < 2)
    (hrow : (decodeTransaction (0x03 :: bytes)).wf = true) : exec (decodeTransaction (0x03 :: bytes)) s
      = .next (Spec.answered (Spec.shifted s (1 + bytes.length)) 0x03 .badArg []) := by
  rcases bytes with _ | ⟨item, _ | ⟨v, r⟩⟩
  · exact exec_noRow h rfl (by decide)
  · have hdecode : decodeTransaction [0x03, item]
        = (decodeStationItem item []).getD (.commandCodeNamesNoCommand [0x03, item]) := rfl
    rw [hdecode] at hrow ⊢
    unfold decodeStationItem at hrow ⊢
    split_ifs at hrow ⊢
    case neg => exact exec_noRow h hrow (by decide)
    all_goals exact exec_setStation_bad h rfl (Or.inl rfl)
  · simp only [List.length_cons] at hshort
    omega

/-- A SET STATION with its value out of range. -/
theorem exec_setStation_outOfRange {s : State} {item v : Byte} {r : List Byte} (h : s.listening)
    (hv : (item = 0x01 ∧ v = 0) ∨ (item = 0x02 ∧ 2 ≤ v) ∨ (item = 0x03 ∧ 3 ≤ v) ∨ (item = 0x05 ∧ (v < 2 ∨ 8 < v))
      ∨ (item = 0x06 ∧ 4 ≤ v)) : exec (decodeTransaction (0x03 :: item :: v :: r)) s
        = .next (Spec.answered (Spec.shifted s (1 + (item :: v :: r).length)) 0x03 .badArg []) := by
  rcases hv with ⟨rfl, hv⟩ | ⟨rfl, hv⟩ | ⟨rfl, hv⟩ | ⟨rfl, hv⟩ | ⟨rfl, hv⟩
  · exact exec_setStation_bad (i := .setStationJoinWait (v :: r)) h rfl
      (Or.inr ⟨v, r, rfl, within_eq_none (Or.inl (by bv_omega))⟩)
  · exact exec_setStation_bad (i := .setStationAutoRejoin (v :: r)) h rfl (Or.inr ⟨v, r, rfl, switchOf_eq_none hv⟩)
  · exact exec_setStation_bad (i := .setStationDetachedLevel (v :: r)) h rfl (Or.inr ⟨v, r, rfl, policyOf_eq_none hv⟩)
  · exact exec_setStation_bad (i := .setStationFoundingDropLimit (v :: r)) h rfl (Or.inr ⟨v, r, rfl, within_eq_none hv⟩)
  · exact exec_setStation_bad (i := .setStationFoundingLossSeverity (v :: r)) h rfl (Or.inr ⟨v, r, rfl, lossOf_eq_none hv⟩)

/-! ### SET SOURCE -/

theorem exec_setSource_bad {s : State} {i : Instr} {α : Type} {source item : Byte} {rest : List Byte}
    {range : Byte → Option α} {write : Fin 32 → α → State → State} (h : s.listening)
    (hexec : exec i s = .next (s.transact 0x04 (3 + rest.length) (setSource source rest range write)))
    (hbad : sourceArg source = none ∨ rest = [] ∨ ∃ b r, rest = b :: r ∧ range b = none) : exec i s
      = .next (Spec.answered (Spec.shifted s (1 + (source :: item :: rest).length)) 0x04 .badArg []) :=
  exec_badArg h hexec (length_source source item rest) (setSource_bad _ _ hbad)

theorem exec_setLineItem_bad {s : State} {i : Instr} {α : Type} {source item : Byte} {rest : List Byte}
    {range : Byte → Option α} {write : Fin 24 → α → State → State} (h : s.listening)
    (hexec : exec i s = .next (s.transact 0x04 (3 + rest.length) (setLineItem source rest range write)))
    (hbad : (sourceArg source).bind lineOf = none ∨ rest = [] ∨ ∃ b r, rest = b :: r ∧ range b = none) : exec i s
      = .next (Spec.answered (Spec.shifted s (1 + (source :: item :: rest).length)) 0x04 .badArg []) :=
  exec_badArg h hexec (length_source source item rest) (setLineItem_bad _ _ hbad)

/-- A SET SOURCE of any item, for no source or without its value byte. -/
theorem exec_setSource_anyItem {s : State} {source item : Byte} {rest : List Byte} (h : s.listening)
    (hbad : 32 ≤ source ∨ rest = []) (hrow : (decodeTransaction (0x04 :: source :: item :: rest)).wf = true) :
    exec (decodeTransaction (0x04 :: source :: item :: rest)) s
      = .next (Spec.answered (Spec.shifted s (1 + (source :: item :: rest).length)) 0x04 .badArg []) := by
  have hsource : sourceArg source = none ∨ rest = [] := hbad.imp_left sourceArg_eq_none
  have hline : (sourceArg source).bind lineOf = none ∨ rest = [] :=
    hbad.imp_left fun hle => lineArg_eq_none (by bv_omega)
  have hdecode : decodeTransaction (0x04 :: source :: item :: rest)
      = (decodeSourceItem source item rest).getD (.commandCodeNamesNoCommand (0x04 :: source :: item :: rest)) := rfl
  rw [hdecode] at hrow ⊢
  unfold decodeSourceItem at hrow ⊢
  split_ifs at hrow ⊢
  · exact exec_setSource_bad h rfl (hsource.imp_right Or.inl)
  · exact exec_setLineItem_bad h rfl (hline.imp_right Or.inl)
  · exact exec_setLineItem_bad h rfl (hline.imp_right Or.inl)
  · exact exec_setSource_bad h rfl (hsource.imp_right Or.inl)
  · exact exec_noRow h hrow (by decide)

/-- A SET SOURCE without its value byte. -/
theorem exec_setSource_short {s : State} {bytes : List Byte} (h : s.listening) (hshort : bytes.length < 3)
    (hrow : (decodeTransaction (0x04 :: bytes)).wf = true) : exec (decodeTransaction (0x04 :: bytes)) s
      = .next (Spec.answered (Spec.shifted s (1 + bytes.length)) 0x04 .badArg []) := by
  rcases bytes with _ | ⟨source, _ | ⟨item, _ | ⟨v, r⟩⟩⟩
  · exact exec_noRow h rfl (by decide)
  · exact exec_noRow h rfl (by decide)
  · exact exec_setSource_anyItem h (Or.inr rfl) hrow
  · simp only [List.length_cons] at hshort
    omega

/-- A SET SOURCE with its source or its value out of range. -/
theorem exec_setSource_outOfRange {s : State} {source item v : Byte} {r : List Byte} (h : s.listening)
    (hv : 32 ≤ source ∨ (item = 0x00 ∧ 5 ≤ v) ∨ (item = 0x01 ∧ (24 ≤ source ∨ 2 ≤ v))
      ∨ (item = 0x02 ∧ (24 ≤ source ∨ 2 ≤ v)) ∨ (item = 0x03 ∧ v = 0))
    (hrow : (decodeTransaction (0x04 :: source :: item :: v :: r)).wf = true) :
    exec (decodeTransaction (0x04 :: source :: item :: v :: r)) s
      = .next (Spec.answered (Spec.shifted s (1 + (source :: item :: v :: r).length)) 0x04 .badArg []) := by
  rcases hv with hs | ⟨rfl, hv⟩ | ⟨rfl, hv⟩ | ⟨rfl, hv⟩ | ⟨rfl, hv⟩
  · exact exec_setSource_anyItem h (Or.inl hs) hrow
  · exact exec_setSource_bad (i := .setSourceClass source (v :: r)) h rfl (Or.inr (Or.inr ⟨v, r, rfl, classOf_eq_none hv⟩))
  · exact exec_setLineItem_bad (i := .setSourceMode source (v :: r)) h rfl
      (hv.imp lineArg_eq_none fun hv => Or.inr ⟨v, r, rfl, modeOf_eq_none hv⟩)
  · exact exec_setLineItem_bad (i := .setSourcePolarity source (v :: r)) h rfl
      (hv.imp lineArg_eq_none fun hv => Or.inr ⟨v, r, rfl, polarityOf_eq_none hv⟩)
  · exact exec_setSource_bad (i := .setSourceThreshold source (v :: r)) h rfl
      (Or.inr (Or.inr ⟨v, r, rfl, within_eq_none (Or.inl (by bv_omega))⟩))

/-! ### The commands with arguments -/

theorem exec_raise_bad {s : State} {bytes : List Byte} (h : s.listening)
    (hbad : bytes.length < 5 ∨ ∃ source r, bytes = source :: r ∧ (source < 24 ∨ 29 < source)) :
    exec (.raise bytes) s = .next (Spec.answered (Spec.shifted s (1 + bytes.length)) 0x07 .badArg []) := by
  refine exec_badArg h rfl rfl ?_
  split
  · next source a b c d r =>
    have hsource : source < 24 ∨ 29 < source := by
      rcases hbad with hshort | ⟨x, r', hx, hbad⟩
      · simp only [List.length_cons] at hshort
        omega
      · injection hx with hx
        rwa [hx]
    rw [raisedSource_eq_none hsource]
  · rfl

theorem exec_requestClear_bad {s : State} {bytes : List Byte} (h : s.listening)
    (hbad : bytes.length < 6 ∨ ∃ scope origin r, bytes = scope :: origin :: r ∧ (3 ≤ scope ∨ 16 ≤ origin)) :
    exec (.requestClear bytes) s = .next (Spec.answered (Spec.shifted s (1 + bytes.length)) 0x0A .badArg []) := by
  refine exec_badArg h rfl rfl ?_
  split
  · next scope origin a b c d r =>
    have hargs : scopeArg scope = none ∨ within 0 15 origin = none := by
      rcases hbad with hshort | ⟨x, y, r', hx, hbad⟩
      · simp only [List.length_cons] at hshort
        omega
      · injection hx with hx hy
        injection hy with hy
        rw [hx, hy]
        exact hbad.imp scopeArg_eq_none fun hle => within_eq_none (Or.inr (by bv_omega))
    split
    · next hscope horigin =>
      rcases hargs with hno | hno
      · cases hno.symm.trans hscope
      · cases hno.symm.trans horigin
    · rfl
  · rfl

theorem sourceByte_bad {bytes : List Byte} (h : bytes = [] ∨ ∃ source r, bytes = source :: r ∧ 32 ≤ source) :
    bytes = [] ∨ ∃ b r, bytes = b :: r ∧ sourceArg b = none :=
  h.imp_right fun ⟨source, r, hb, hs⟩ => ⟨source, r, hb, sourceArg_eq_none hs⟩

/-- Settles O56: the command is the one its bytes spell. -/
theorem badArguments : Obligations.BadArguments := by
  intro s i bytes code h hwf henc hbad
  obtain rfl : decodeTransaction (code :: bytes) = i := transactionsReadBack.1 i _ hwf henc
  rcases hbad with ⟨⟨b, hb⟩, hcode⟩ | ⟨rfl, hbad⟩ | ⟨rfl, hbad⟩ | ⟨rfl, hbad⟩ | ⟨hcode, hbad⟩ | ⟨rfl, hbad⟩ | ⟨rfl, hbad⟩
    | ⟨rfl, hbad⟩ | ⟨rfl, hbad⟩
  · rw [hb] at hwf henc ⊢
    injection henc with henc
    subst henc
    exact exec_noRow h hwf hcode
  · rcases hbad with hshort | ⟨item, v, r, rfl, hv⟩
    · exact exec_setStation_short h hshort hwf
    · exact exec_setStation_outOfRange h hv
  · rcases hbad with hshort | ⟨source, item, v, r, rfl, hv⟩
    · exact exec_setSource_short h hshort hwf
    · exact exec_setSource_outOfRange h hv hwf
  · exact exec_raise_bad h hbad
  · rcases hcode with rfl | rfl | rfl
    · exact exec_badArg (i := .releaseSource bytes) h rfl rfl (withByte_bad _ _ (sourceByte_bad hbad))
    · exact exec_badArg (i := .readCounter bytes) h rfl rfl (withByte_bad _ _ (sourceByte_bad hbad))
    · exact exec_badArg (i := .clearCounter bytes) h rfl rfl (withByte_bad _ _ (sourceByte_bad hbad))
  · exact exec_badArg (i := .resolve bytes) h rfl rfl (withByte_bad _ _
      (hbad.imp_right fun ⟨source, r, hb, hs⟩ => ⟨source, r, hb, within_eq_none (Or.inr hs)⟩))
  · exact exec_requestClear_bad h hbad
  · exact exec_badArg (i := .readLocal bytes) h rfl rfl (withByte_bad _ _
      (hbad.imp_right fun ⟨selector, r, hb, hlt, hne⟩ => ⟨selector, r, hb, selected_eq_none _ hlt hne⟩))
  · exact exec_badArg (i := .readEntry bytes) h rfl rfl (withByte_bad _ _
      (hbad.imp_right fun ⟨position, r, hb, hp⟩ => ⟨position, r, hb, within_eq_none (Or.inr hp)⟩))

end Sys2Proof.Machine
end

section
/-! PROOFS. What a transaction shifts out, and the response it stores (R150, R151, R152, R178). -/

namespace Sys2Proof.Machine

/-! ### Replies keep the port (R151, R152) -/

/-- A reply to a command at `t` leaves the port to the transaction, and has data only when DONE. -/
def Reply.obeys (r : Reply) (t : State) : Prop := r.state.port = t.port ∧ (r.status ≠ .done → r.data = [])

theorem refuse_obeys (status : Status) (t : State) : (refuse status t).obeys t := ⟨rfl, fun _ => rfl⟩

theorem answer_obeys {t u : State} (data : List Byte) (h : u.port = t.port) : (answer data u).obeys t :=
  ⟨h, fun hno => absurd rfl hno⟩

theorem done_obeys {t u : State} (h : u.port = t.port) : (done u).obeys t := ⟨h, fun _ => rfl⟩

theorem withByte_obeys {α : Type} (rest : List Byte) (range : Byte → Option α) {act : α → State → Reply} (t : State)
    (h : ∀ v, (act v t).obeys t) : (withByte rest range act t).obeys t := by
  unfold withByte
  split
  · exact refuse_obeys _ t
  · split
    · exact h _
    · exact refuse_obeys _ t

theorem locked_obeys {write : State → State} (t : State) (h : (write t).port = t.port) : (locked write t).obeys t := by
  unfold locked
  split
  · exact done_obeys h
  · exact refuse_obeys _ t

theorem setSource_obeys {α : Type} (source : Byte) (rest : List Byte) (range : Byte → Option α)
    {write : Fin 32 → α → State → State} (t : State) (h : ∀ n v, (write n v t).port = t.port) :
    (setSource source rest range write t).obeys t := by
  unfold setSource
  split
  · exact withByte_obeys rest range t fun v => locked_obeys t (h _ v)
  · exact refuse_obeys _ t

theorem setLineItem_obeys {α : Type} (source : Byte) (rest : List Byte) (range : Byte → Option α)
    {write : Fin 24 → α → State → State} (t : State) (h : ∀ n v, (write n v t).port = t.port) :
    (setLineItem source rest range write t).obeys t := by
  unfold setLineItem
  split
  · exact withByte_obeys rest range t fun v => locked_obeys t (h _ v)
  · exact refuse_obeys _ t

theorem readCopy_obeys (data : State → List Byte) (t : State) : (readCopy data t).obeys t := by
  unfold readCopy
  split
  · exact answer_obeys _ rfl
  · exact refuse_obeys _ t

theorem displaced_port (i : Item) (s : State) : (s.displaced i).port = s.port := by
  unfold State.displaced
  split <;> rfl

theorem answered_port (a : Answer) (s : State) : (s.answered a).port = s.port := by
  unfold State.answered
  split
  · exact displaced_port _ _
  · rfl

theorem offerNotice_obeys (a : Answer) (t : State) : (offerNotice a t).obeys t := by
  unfold offerNotice
  split
  · exact done_obeys (answered_port a t)
  · exact refuse_obeys _ t

theorem clearLocalFirst_port (s : State) : s.clearLocalFirst.port = s.port := by
  unfold State.clearLocalFirst
  split
  · rfl
  · rw [State.setCauseIf_port]
    rfl

/-! ### The rows of the port (Table 11-5) -/

/-- A port row is a transaction with a reply that keeps the port. -/
def PortRow (i : Instr) (code : Byte) (n : Nat) : Prop :=
  ∃ act : State → Reply, (∀ s, exec i s = .next (s.transact code n act)) ∧ ∀ t, (act t).obeys t

theorem portRow_of_length {i : Instr} {code : Byte} {n m : Nat} (h : PortRow i code n) (hn : n = m) : PortRow i code m :=
  hn ▸ h

theorem portRow_setStation {i : Instr} {item : Byte} {α : Type} {rest : List Byte} {range : Byte → Option α}
    {write : α → State → State}
    (hexec : ∀ s, exec i s = .next (s.transact 0x03 (2 + rest.length) (setStation rest range write)))
    (hport : ∀ v t, (write v t).port = t.port) :
    PortRow i 0x03 (1 + (item :: rest).length) :=
  portRow_of_length ⟨_, hexec, fun t => withByte_obeys rest range t fun v => locked_obeys t (hport v t)⟩
    (length_station item rest)

theorem portRow_setSource {i : Instr} {source item : Byte} {α : Type} {rest : List Byte} {range : Byte → Option α}
    {write : Fin 32 → α → State → State}
    (hexec : ∀ s, exec i s = .next (s.transact 0x04 (3 + rest.length) (setSource source rest range write)))
    (hport : ∀ n v t, (write n v t).port = t.port) :
    PortRow i 0x04 (1 + (source :: item :: rest).length) :=
  portRow_of_length ⟨_, hexec, fun t => setSource_obeys source rest range t fun n v => hport n v t⟩
    (length_source source item rest)

theorem portRow_setLineItem {i : Instr} {source item : Byte} {α : Type} {rest : List Byte} {range : Byte → Option α}
    {write : Fin 24 → α → State → State}
    (hexec : ∀ s, exec i s = .next (s.transact 0x04 (3 + rest.length) (setLineItem source rest range write)))
    (hport : ∀ n v t, (write n v t).port = t.port) :
    PortRow i 0x04 (1 + (source :: item :: rest).length) :=
  portRow_of_length ⟨_, hexec, fun t => setLineItem_obeys source rest range t fun n v => hport n v t⟩
    (length_source source item rest)

theorem portRow_raise (rest : List Byte) : PortRow (.raise rest) 0x07 (1 + rest.length) := by
  refine ⟨_, fun s => rfl, fun t => ?_⟩
  split
  · split
    · exact done_obeys (assertSource_local _ _ t).port
    · exact refuse_obeys _ t
  · exact refuse_obeys _ t

theorem portRow_requestClear (rest : List Byte) : PortRow (.requestClear rest) 0x0A (1 + rest.length) := by
  refine ⟨_, fun s => rfl, fun t => ?_⟩
  split
  · split
    · split
      · exact offerNotice_obeys _ t
      · exact refuse_obeys _ t
    · exact refuse_obeys _ t
  · exact refuse_obeys _ t

theorem portRow_noRow {code : Byte} {bytes : List Byte} (hrow : spellsNoRow (code :: bytes) = true) (hcode : code ≠ 0xFF) :
    PortRow (.commandCodeNamesNoCommand (code :: bytes)) code (1 + bytes.length) := by
  refine portRow_of_length ⟨refuse .badArg, fun s => ?_, refuse_obeys .badArg⟩ (Nat.add_comm bytes.length 1)
  show execCommandCodeNamesNoCommand (code :: bytes) s = _
  rw [execCommandCodeNamesNoCommand, if_pos hrow]
  exact if_neg hcode

/-- Every transaction with a code other than the idle byte is a row with a reply. -/
theorem portRow_of_encode {i : Instr} {code : Byte} {bytes : List Byte} (henc : encodeTransaction i = some (code :: bytes))
    (hwf : i.wf = true) (hcode : code ≠ 0xFF) : PortRow i code (1 + bytes.length) := by
  cases i with
  | status rest => cases henc; exact ⟨_, fun s => rfl, fun t => answer_obeys _ rfl⟩
  | readAlerts rest => cases henc; exact ⟨_, fun s => rfl, fun t => answer_obeys _ rfl⟩
  | setStationQualifyTime rest => cases henc; exact portRow_setStation (fun s => rfl) (fun v t => rfl)
  | setStationJoinWait rest => cases henc; exact portRow_setStation (fun s => rfl) (fun v t => rfl)
  | setStationAutoRejoin rest => cases henc; exact portRow_setStation (fun s => rfl) (fun v t => rfl)
  | setStationDetachedLevel rest => cases henc; exact portRow_setStation (fun s => rfl) (fun v t => State.redrive_port _)
  | setStationAlertMask rest => cases henc; exact portRow_setStation (fun s => rfl) (fun v t => rfl)
  | setStationFoundingDropLimit rest => cases henc; exact portRow_setStation (fun s => rfl) (fun v t => rfl)
  | setStationFoundingLossSeverity rest => cases henc; exact portRow_setStation (fun s => rfl) (fun v t => rfl)
  | setSourceClass source rest => cases henc; exact portRow_setSource (fun s => rfl) (fun n v t => rfl)
  | setSourceMode source rest =>
    cases henc; exact portRow_setLineItem (fun s => rfl) (fun n v t => (watchLine_local n _).port)
  | setSourcePolarity source rest =>
    cases henc; exact portRow_setLineItem (fun s => rfl) (fun n v t => (watchLine_local n _).port)
  | setSourceThreshold source rest => cases henc; exact portRow_setSource (fun s => rfl) (fun n v t => rfl)
  | join rest =>
    cases henc
    refine ⟨_, fun s => rfl, fun t => ?_⟩
    split
    · exact done_obeys rfl
    · exact refuse_obeys _ t
  | leave rest =>
    cases henc
    refine ⟨_, fun s => rfl, fun t => ?_⟩
    split
    · exact offerNotice_obeys _ t
    · exact refuse_obeys _ t
  | raise rest => cases henc; exact portRow_raise _
  | releaseSource rest =>
    cases henc
    refine ⟨_, fun s => rfl, fun t => withByte_obeys _ sourceArg t fun n => ?_⟩
    split
    · exact refuse_obeys _ t
    · exact done_obeys rfl
  | resolve rest =>
    cases henc
    refine ⟨_, fun s => rfl, fun t => withByte_obeys _ (within 0 32) t fun b => ?_⟩
    split
    · exact refuse_obeys _ t
    · exact offerNotice_obeys _ t
  | requestClear rest => cases henc; exact portRow_requestClear _
  | readLocal rest =>
    cases henc
    exact ⟨_, fun s => rfl, fun t => withByte_obeys _ t.log.selected t fun r => answer_obeys _ rfl⟩
  | clearLocalFirst rest => cases henc; exact ⟨_, fun s => rfl, fun t => done_obeys (clearLocalFirst_port t)⟩
  | readCounter rest =>
    cases henc
    exact ⟨_, fun s => rfl, fun t => withByte_obeys _ sourceArg t fun n => answer_obeys _ rfl⟩
  | clearCounter rest =>
    cases henc
    exact ⟨_, fun s => rfl, fun t => withByte_obeys _ sourceArg t fun n => done_obeys rfl⟩
  | readEntry rest =>
    cases henc
    exact ⟨_, fun s => rfl, fun t => withByte_obeys _ (within 0 31) t fun p => readCopy_obeys _ t⟩
  | readChassisFirst rest => cases henc; exact ⟨_, fun s => rfl, fun t => readCopy_obeys _ t⟩
  | readRoster rest => cases henc; exact ⟨_, fun s => rfl, fun t => readCopy_obeys _ t⟩
  | commandCodeNamesNoCommand b => cases henc; exact portRow_noRow hwf hcode
  | _ => cases henc

/-! ### What is shifted out (R151, R178) -/

theorem shiftOut_getElem? (r : Option Response) {n k : Nat} (hk : k < n) :
    (shiftOut r n)[k]? = some ((responseBytes r).getD k 0xFF) := by
  rw [shiftOut, List.getElem?_take_of_lt hk]
  by_cases hlt : k < (responseBytes r).length
  · rw [List.getElem?_append_left hlt, List.getElem?_eq_getElem hlt, List.getD_eq_getElem _ _ hlt]
  · rw [List.getElem?_append_right (Nat.not_lt.1 hlt), List.getElem?_replicate_of_lt (by omega),
      List.getD_eq_default _ _ (Nat.not_lt.1 hlt)]
    rfl

/-- Without a command, the transaction shifts out what it can and is over. -/
theorem transact_refused {s : State} (hdue : s.nothingDue) (h : s.operating = false ∨ s.port.straddle ≠ none) (code : Byte)
    (n : Nat) (act : State → Reply) : s.transact code n act = s.shifts n := by
  have hno : s.takesCommands = false := by
    rcases h with hop | hstraddle
    · rw [State.takesCommands, hop, Bool.false_and]
    · rw [State.takesCommands, Option.isNone_eq_false_iff.2 (Option.isSome_iff_ne_none.2 hstraddle), Bool.and_false]
  rw [State.transact, settleDue_of_nothingDue hdue, hno, if_neg Bool.false_ne_true]

/-- A transaction of no byte, or with the idle byte first, takes no command. -/
theorem exec_idle {bytes : List Byte} {s : State} (hdue : s.nothingDue) (hrow : spellsNoRow bytes = true)
    (h : bytes.head? = none ∨ bytes.head? = some 0xFF) :
    exec (.commandCodeNamesNoCommand bytes) s = .next (s.shifts bytes.length) := by
  show execCommandCodeNamesNoCommand bytes s = _
  cases bytes with
  | nil =>
    rw [execCommandCodeNamesNoCommand, if_pos hrow, settleDue_of_nothingDue hdue]
    rfl
  | cons code rest =>
    have hcode : code = 0xFF := h.elim nofun fun h => Option.some.inj h
    rw [execCommandCodeNamesNoCommand, if_pos hrow, settleDue_of_nothingDue hdue]
    exact if_pos hcode

theorem decodeTransaction_idle {bytes : List Byte} (h : bytes.head? = none ∨ bytes.head? = some 0xFF) :
    decodeTransaction bytes = .commandCodeNamesNoCommand bytes := by
  cases bytes with
  | nil => rfl
  | cons code rest =>
    have hcode : code = 0xFF := h.elim nofun fun h => Option.some.inj h
    rw [decodeTransaction_cons, decodeCode_of_high rest (by rw [hcode]; decide)]
    rfl

/-- A transaction only shifts out, or is a row with a reply. -/
theorem port_cases {i : Instr} {bytes : List Byte} (henc : encodeTransaction i = some bytes) (hwf : i.wf = true) :
    ((bytes.head? = none ∨ bytes.head? = some 0xFF) ∧ ∀ s : State, s.nothingDue → exec i s = .next (s.shifts bytes.length))
      ∨ ∃ code, bytes.head? = some code ∧ code ≠ 0xFF ∧ PortRow i code bytes.length := by
  by_cases hidle : bytes.head? = none ∨ bytes.head? = some 0xFF
  · obtain rfl : decodeTransaction bytes = i := transactionsReadBack.1 i bytes hwf henc
    rw [decodeTransaction_idle hidle] at hwf ⊢
    exact Or.inl ⟨hidle, fun s hdue => exec_idle hdue hwf hidle⟩
  · cases bytes with
    | nil => exact absurd (Or.inl rfl) hidle
    | cons code rest =>
      have hcode : code ≠ 0xFF := fun hff => hidle (Or.inr (by rw [hff]; rfl))
      exact Or.inr ⟨code, rfl, hcode, portRow_of_length (portRow_of_encode henc hwf hcode) (Nat.add_comm 1 rest.length)⟩

/-- A transaction at a port that takes no command. -/
theorem exec_port_refused {i : Instr} {bytes : List Byte} {s : State} (henc : encodeTransaction i = some bytes)
    (hwf : i.wf = true) (hdue : s.nothingDue) (h : s.operating = false ∨ s.port.straddle ≠ none) :
    exec i s = .next (s.shifts bytes.length) := by
  rcases port_cases henc hwf with ⟨-, hexec⟩ | ⟨code, -, -, act, hexec, -⟩
  · exact hexec s hdue
  · rw [hexec, transact_refused hdue h]

/-- A row at a listening port: the response it stores, and what is shifted out. -/
theorem exec_portRow {i : Instr} {code : Byte} {n : Nat} {s : State} (hrow : PortRow i code n) (h : s.listening) :
    ∃ t, exec i s = .next t ∧ t.port.sdo = shiftOut s.port.response n ∧ ∃ r, t.port.response = some r ∧ r.code = code
      ∧ r.count = Spec.nextCount s ∧ t.port.count = Spec.nextCount s ∧ (r.status ≠ .done → r.data = []) := by
  obtain ⟨act, hexec, hobeys⟩ := hrow
  obtain ⟨hport, hdata⟩ := hobeys (Spec.shifted s n)
  refine ⟨_, (hexec s).trans (congrArg _ (transact_listening h code n act)), ?_, _, rfl, rfl, rfl, rfl, hdata⟩
  show (act (Spec.shifted s n)).state.port.sdo = _
  rw [hport]
  rfl

/-- Settles O50. -/
theorem responsesOnThePort : Obligations.ResponsesOnThePort := by
  refine ⟨fun i bytes s henc hwf hdue => ⟨fun h => ?refused, fun hop hstraddle => ?taken⟩, shiftOut_length,
    fun n k hk => ?empty, fun r n k hk => ?stored⟩
  case refused =>
    exact ⟨_, s.freeCount + s.freeUsed bytes.length, bytesOut_clockedOut s bytes.length, Nat.le_add_right _ _,
      exec_port_refused henc hwf hdue h⟩
  case taken =>
    rcases port_cases henc hwf with ⟨hidle, hexec⟩ | ⟨code, hhead, hcode, hrow⟩
    · refine ⟨_, hexec s hdue, ?_, fun hne hff => absurd hidle (not_or.2 ⟨hne, hff⟩), fun _ => ?_⟩
      · rw [shifts_of_operating _ hop hstraddle]
        rfl
      · exact shifts_of_operating _ hop hstraddle
    · obtain ⟨t, hexec, hsdo, r, hr, hrcode, hrest⟩ := exec_portRow hrow (s := s) ⟨⟨hop, hdue⟩, hstraddle⟩
      refine ⟨t, hexec, hsdo, fun _ _ => ⟨r, hr, by rw [hrcode, hhead], hrest⟩, fun hidle => ?_⟩
      rw [hhead] at hidle
      exact hidle.elim nofun fun hff => absurd (Option.some.inj hff) hcode
  case empty =>
    rw [shiftOut_getElem? none hk]
    rcases k with _ | _ | _ | j <;> rfl
  case stored =>
    rw [shiftOut_getElem? (some r) hk]
    rcases k with _ | _ | _ | j <;> rfl

end Sys2Proof.Machine
end
